-- ==== Sys2Proof/Word.lean ====
section
/-!
DEFINITION. The word types of the SD command framer (spec/00_scope.md R7, R9): a byte of the link, a 64-bit request word
(spec/30_encoding.md R70), and a byte array in the order its bytes cross the transport.
-/

namespace Sys2Proof

/-- One byte of the link; bit 7 crosses first (R55). -/
abbrev Byte := BitVec 8

/-- A request word, the block's "instruction" (R70). -/
abbrev Word := BitVec 64

/-- `B[0..n-1]`: the bytes in the order they cross the transport, `B[0]` first (R9). -/
abbrev Bytes (n : Nat) := Vector Byte n

end Sys2Proof
end

