-- ==== Sys2Proof/Machine/Crc7.lean ====
section
/-!
DEFINITION. The CRC-7 generator of spec/40_framing.md R100, bit by bit as its pseudocode has it.
-/

namespace Sys2Proof.Machine

/-- One message bit: feedback from the top bit of the register, shift, and the taps of x^3 + 1 (R100). -/
def crc7Bit (c : BitVec 7) (b : Bool) : BitVec 7 :=
  if c.getLsbD 6 ^^ b then (c <<< 1) ^^^ 0b0001001#7 else c <<< 1

/-- One message byte, bit 7 first (R55, R100). -/
def crc7Byte (c : BitVec 7) (x : Byte) : BitVec 7 :=
  [7, 6, 5, 4, 3, 2, 1, 0].foldl (fun c j => crc7Bit c (x.getLsbD j)) c

/-- `crc7(F[0..4])`: register initialised to 0, `F[0]` first, no final XOR (R100). -/
def crc7 (m : Bytes 5) : BitVec 7 :=
  m.toList.foldl crc7Byte 0

end Sys2Proof.Machine
end

