-- ==== Sys2Proof/Machine/Framing.lean ====
section
/-!
DEFINITION. The command frame (spec/30_encoding.md R76, R77): its six bytes from its fields, its checksum, and the frame read as
one 48-bit number with the first bit sent in bit 47.
-/

namespace Sys2Proof.Machine

/-- `F[0]`: start bit 0, transmission bit 1, command index (R77). -/
def frameHead (idx : BitVec 6) : Byte := 0x40#8 ||| idx.setWidth 8

/-- `F[0..4]`, the message the checksum covers (R77, R100). -/
def frameMessage (idx : BitVec 6) (arg : BitVec 32) : Bytes 5 :=
  #v[frameHead idx, arg.extractLsb' 24 8, arg.extractLsb' 16 8, arg.extractLsb' 8 8, arg.extractLsb' 0 8]

/-- The true CRC-7 of the frame for `idx` and `arg` (R102). -/
def frameCrc (idx : BitVec 6) (arg : BitVec 32) : BitVec 7 := crc7 (frameMessage idx arg)

/-- The six bytes of a frame with the given checksum field: `F[5] = (crc << 1) | 1` (R77). -/
def frameBytes (idx : BitVec 6) (arg : BitVec 32) (crc : BitVec 7) : Bytes 6 :=
  #v[frameHead idx, arg.extractLsb' 24 8, arg.extractLsb' 16 8, arg.extractLsb' 8 8, arg.extractLsb' 0 8,
    (crc.setWidth 8 <<< 1) ||| 0x01#8]

/-- The value `BuildFrame(idx, arg)` returns (R104). -/
def buildFrame (idx : BitVec 6) (arg : BitVec 32) : Bytes 6 := frameBytes idx arg (frameCrc idx arg)

/-- A frame as the 48-bit number of R76: bit 47 is the first one sent. -/
def frameToBits (f : Bytes 6) : BitVec 48 :=
  (f[0].setWidth 48 <<< 40) ||| (f[1].setWidth 48 <<< 32) ||| (f[2].setWidth 48 <<< 24) ||| (f[3].setWidth 48 <<< 16)
    ||| (f[4].setWidth 48 <<< 8) ||| f[5].setWidth 48

/-- The six bytes of a 48-bit frame word, `F[0]` from bits 47:40 (R76). -/
def frameOfBits (w : BitVec 48) : Bytes 6 :=
  #v[w.extractLsb' 40 8, w.extractLsb' 32 8, w.extractLsb' 24 8, w.extractLsb' 16 8, w.extractLsb' 8 8, w.extractLsb' 0 8]

end Sys2Proof.Machine
end

