-- ==== Sys2Proof/Machine/Operands.lean ====
section
/-!
DEFINITION. Operand forms: the fields of a request word (spec/30_encoding.md R70, R72), big-endian byte groups (R9, R56), and
the bit addressing of the CSD image (spec/42_csd_decoder.md R160).
-/

namespace Sys2Proof.Machine

/-- OP, bits 3:0 of a request word. -/
def reqOp (w : Word) : BitVec 4 := w.extractLsb' 0 4

/-- VER, bits 5:4. -/
def reqVer (w : Word) : BitVec 2 := w.extractLsb' 4 2

/-- RSV0, bits 7:6. -/
def reqRsv0 (w : Word) : BitVec 2 := w.extractLsb' 6 2

/-- IDX, bits 13:8. -/
def reqIdx (w : Word) : BitVec 6 := w.extractLsb' 8 6

/-- RSV1, bits 31:14. -/
def reqRsv1 (w : Word) : BitVec 18 := w.extractLsb' 14 18

/-- ARG, bits 63:32. -/
def reqArg (w : Word) : BitVec 32 := w.extractLsb' 32 32

/-- The reserved bits 7:6 and 31:14 are all 0 (R74). -/
def reservedClear (w : Word) : Bool := reqRsv0 w == 0#2 && reqRsv1 w == 0#18

/-- The request word with every field given (the layout drawn in R70). -/
def requestWord (op : BitVec 4) (ver rsv0 : BitVec 2) (idx : BitVec 6) (rsv1 : BitVec 18) (arg : BitVec 32) : Word :=
  (arg.setWidth 64 <<< 32) ||| (rsv1.setWidth 64 <<< 14) ||| (idx.setWidth 64 <<< 8) ||| (rsv0.setWidth 64 <<< 6)
    ||| (ver.setWidth 64 <<< 4) ||| op.setWidth 64

/-- How many trailing bytes follow the status byte: 4 for CMD.R3 and CMD.R7, none otherwise (R120). -/
def tailCount (op : BitVec 4) : Nat :=
  if op = 3#4 ∨ op = 4#4 then 4 else 0

/-- `be32(RESP[1..4])`: the OCR of an R3 response, the payload of an R7 response (R56, R81, R82). -/
def respPayload (r : Bytes 5) : BitVec 32 :=
  (r[1].setWidth 32 <<< 24) ||| (r[2].setWidth 32 <<< 16) ||| (r[3].setWidth 32 <<< 8) ||| r[4].setWidth 32

/-- CSD bit n, for n from 0 to 127: `CSDBUF[15 - (n >> 3)][n & 7]` (R57, R160). There is no other bit. -/
def csdBit (b : Bytes 16) (n : Nat) : Bool :=
  decide (n < 128) && (b[15 - n / 8]'(by omega)).getLsbD (n % 8)

/-- `CSD[lo+n-1 : lo]`: the concatenation of n bits, the lowest of them bit lo (R160). -/
def csdField (b : Bytes 16) (lo n : Nat) : BitVec n :=
  BitVec.ofFnLE fun k => csdBit b (lo + k.val)

end Sys2Proof.Machine
end

