-- ==== Sys2Proof/Syntax.lean ====
section
/-!
DEFINITION. The instructions: one constructor per row of spec/opcode_table.json. The first nine rows are 64-bit request words
(spec/30_encoding.md R71, R74); the last ten are the 48-bit command frames the block transmits (R76, R83). A field an
operation ignores (R73) is kept as an operand, so that no bit of a word is lost.
-/

namespace Sys2Proof

/-- One row of the opcode table, with the fields of its word. -/
inductive Instr where
  /-- NOP: every field ignored (R106). -/
  | nop (ver : BitVec 2) (idx : BitVec 6) (arg : BitVec 32)
  /-- FRAME idx, arg (R107). -/
  | frame (ver : BitVec 2) (idx : BitVec 6) (arg : BitVec 32)
  /-- CMD.R1 idx, arg (R125). -/
  | cmdR1 (ver : BitVec 2) (idx : BitVec 6) (arg : BitVec 32)
  /-- CMD.R3 idx, arg (R126). -/
  | cmdR3 (ver : BitVec 2) (idx : BitVec 6) (arg : BitVec 32)
  /-- CMD.R7 idx, arg (R127). -/
  | cmdR7 (ver : BitVec 2) (idx : BitVec 6) (arg : BitVec 32)
  /-- CSD.DECODE ver (R178). -/
  | csdDecode (ver : BitVec 2) (idx : BitVec 6) (arg : BitVec 32)
  /-- RESERVED.OP6-7: a word whose OP is 0x6 or 0x7 (R74, R205). -/
  | reservedOp67 (word : Word)
  /-- RESERVED.OP8-F: a word whose OP is 0x8 to 0xF (R74, R205). -/
  | reservedOp8F (word : Word)
  /-- RESERVED.OTHER: OP is 0x0 to 0x5 and a reserved bit is set (R74, R205). -/
  | reservedOther (word : Word)
  /-- SD.CMD0 GO_IDLE: index 0, argument 0 (R83). -/
  | sdCmd0GoIdle (crc : BitVec 7)
  /-- SD.CMD8 SEND_IF_COND: index 8, argument 0x155 (R84). -/
  | sdCmd8SendIfCond (crc : BitVec 7)
  /-- SD.CMD9 SEND_CSD: index 9, argument 0 (R83). -/
  | sdCmd9SendCsd (crc : BitVec 7)
  /-- SD.CMD55 APP_CMD: index 55, argument 0 (R83). -/
  | sdCmd55AppCmd (crc : BitVec 7)
  /-- SD.ACMD41 SEND_OP_COND v1: index 41, argument 0 (R83). -/
  | sdAcmd41SendOpCondV1 (crc : BitVec 7)
  /-- SD.ACMD41 SEND_OP_COND v2: index 41, argument 0x40000000 (R83). -/
  | sdAcmd41SendOpCondV2 (crc : BitVec 7)
  /-- SD.CMD58 READ_OCR: index 58, argument 0 (R83). -/
  | sdCmd58ReadOcr (crc : BitVec 7)
  /-- SD.CMD59 CRC_ON: index 59, argument 1 (R85). -/
  | sdCmd59CrcOn (crc : BitVec 7)
  /-- SD.CMD59 CRC_OFF: index 59, argument 0 (R85). -/
  | sdCmd59CrcOff (crc : BitVec 7)
  /-- SD.CMDn, any other frame (R77). -/
  | sdAnyFrame (idx : BitVec 6) (arg : BitVec 32) (crc : BitVec 7)
  deriving DecidableEq, Repr

/-- The pseudo-operations of R87; each expands to one operation. -/
inductive Pseudo where
  | goIdle
  | sendIfCond
  | crcOn
  | crcOff
  | readOcr
  | appCmd
  | sendOpCondV1
  | sendOpCondV2
  | sendCsd
  deriving DecidableEq, Repr

/-- What the machine fetches: a request word the host presents, or the 48-bit frame the block transmits. -/
inductive Fetched where
  | request (w : Word)
  | frame (f : BitVec 48)
  deriving DecidableEq, Repr

end Sys2Proof
end

