-- ==== Sys2Proof/WellFormed.lean ====
section
/-!
DEFINITION. The static checks of an instruction: a reserved row holds a word of that row (spec/30_encoding.md R74), and a
command frame carries the true CRC-7 of its bits (R76, spec/40_framing.md R100) and stands under its own row's name.
-/

namespace Sys2Proof

open Machine

/-- The index and argument stand in a row of their own in the opcode table (R83, R84, R85). -/
def namedFrame (idx : BitVec 6) (arg : BitVec 32) : Bool :=
  [(0#6, 0#32), (8#6, 0x155#32), (9#6, 0#32), (55#6, 0#32), (41#6, 0#32), (41#6, 0x40000000#32), (58#6, 0#32), (59#6, 1#32),
    (59#6, 0#32)].contains (idx, arg)

/-- The checks, one arm per row. -/
def Instr.wf : Instr → Bool
  | .nop _ _ _ => true
  | .frame _ _ _ => true
  | .cmdR1 _ _ _ => true
  | .cmdR3 _ _ _ => true
  | .cmdR7 _ _ _ => true
  | .csdDecode _ _ _ => true
  | .reservedOp67 w => reqOp w == 6#4 || reqOp w == 7#4
  | .reservedOp8F w => decide (8 ≤ (reqOp w).toNat)
  | .reservedOther w => decide ((reqOp w).toNat ≤ 5) && !reservedClear w
  | .sdCmd0GoIdle crc => crc == frameCrc 0#6 0#32
  | .sdCmd8SendIfCond crc => crc == frameCrc 8#6 0x155#32
  | .sdCmd9SendCsd crc => crc == frameCrc 9#6 0#32
  | .sdCmd55AppCmd crc => crc == frameCrc 55#6 0#32
  | .sdAcmd41SendOpCondV1 crc => crc == frameCrc 41#6 0#32
  | .sdAcmd41SendOpCondV2 crc => crc == frameCrc 41#6 0x40000000#32
  | .sdCmd58ReadOcr crc => crc == frameCrc 58#6 0#32
  | .sdCmd59CrcOn crc => crc == frameCrc 59#6 1#32
  | .sdCmd59CrcOff crc => crc == frameCrc 59#6 0#32
  | .sdAnyFrame idx arg crc => crc == frameCrc idx arg && !namedFrame idx arg

end Sys2Proof
end

