-- ==== Sys2Proof/Decode.lean ====
section
/-!
DEFINITION. The decoder and the encoder. Request words decode totally (spec/30_encoding.md R70, R71, R74: the rows of the
opcode table in their order). A 48-bit frame is read only when its start, transmission and stop bits are those of R76.
-/

namespace Sys2Proof

open Machine

/-- Why 48 bits are no command frame (R76). -/
inductive DecodeError where
  /-- Bits 47:46 are not `0b01`. -/
  | badStartBits
  /-- Bit 0 is not 1. -/
  | badStopBit
  deriving DecidableEq, Repr

/-- The reserved row a refused word falls under, by OP alone (R74; the order of the opcode table). -/
def decodeReserved (w : Word) : Instr :=
  if reqOp w = 6#4 ∨ reqOp w = 7#4 then .reservedOp67 w
  else if 8 ≤ (reqOp w).toNat then .reservedOp8F w
  else .reservedOther w

/-- The operation of a request word (R71, R72, R74). -/
def decodeRequest (w : Word) : Instr :=
  if reservedClear w then
    if reqOp w = 0#4 then .nop (reqVer w) (reqIdx w) (reqArg w)
    else if reqOp w = 1#4 then .frame (reqVer w) (reqIdx w) (reqArg w)
    else if reqOp w = 2#4 then .cmdR1 (reqVer w) (reqIdx w) (reqArg w)
    else if reqOp w = 3#4 then .cmdR3 (reqVer w) (reqIdx w) (reqArg w)
    else if reqOp w = 4#4 then .cmdR7 (reqVer w) (reqIdx w) (reqArg w)
    else if reqOp w = 5#4 then .csdDecode (reqVer w) (reqIdx w) (reqArg w)
    else decodeReserved w
  else decodeReserved w

/-- The frame row of an index and an argument: the named rows first, in the table's order (R83, R84, R85). -/
def frameRow (idx : BitVec 6) (arg : BitVec 32) (crc : BitVec 7) : Instr :=
  if idx = 0#6 ∧ arg = 0#32 then .sdCmd0GoIdle crc
  else if idx = 8#6 ∧ arg = 0x155#32 then .sdCmd8SendIfCond crc
  else if idx = 9#6 ∧ arg = 0#32 then .sdCmd9SendCsd crc
  else if idx = 55#6 ∧ arg = 0#32 then .sdCmd55AppCmd crc
  else if idx = 41#6 ∧ arg = 0#32 then .sdAcmd41SendOpCondV1 crc
  else if idx = 41#6 ∧ arg = 0x40000000#32 then .sdAcmd41SendOpCondV2 crc
  else if idx = 58#6 ∧ arg = 0#32 then .sdCmd58ReadOcr crc
  else if idx = 59#6 ∧ arg = 1#32 then .sdCmd59CrcOn crc
  else if idx = 59#6 ∧ arg = 0#32 then .sdCmd59CrcOff crc
  else .sdAnyFrame idx arg crc

/-- The frame row of 48 bits, read as R76 lays them out; the checksum is an operand, judged by `Instr.wf`. -/
def decodeFrame (f : BitVec 48) : Except DecodeError Instr :=
  if f.extractLsb' 46 2 ≠ 0b01#2 then .error .badStartBits
  else if f.extractLsb' 0 1 ≠ 1#1 then .error .badStopBit
  else .ok (frameRow (f.extractLsb' 40 6) (f.extractLsb' 8 32) (f.extractLsb' 1 7))

/-- The decoder. -/
def decode : Fetched → Except DecodeError Instr
  | .request w => .ok (decodeRequest w)
  | .frame f => decodeFrame f

/-- An operation's request word, all reserved bits 0 (R86 with the ignored fields kept). -/
def encodeRequest (op : BitVec 4) (ver : BitVec 2) (idx : BitVec 6) (arg : BitVec 32) : Fetched :=
  .request (requestWord op ver 0 idx 0 arg)

/-- A frame's 48 bits (R76): `0b01`, index, argument, checksum, stop bit. -/
def encodeFrame (idx : BitVec 6) (arg : BitVec 32) (crc : BitVec 7) : Fetched :=
  .frame ((0b01#48 <<< 46) ||| (idx.setWidth 48 <<< 40) ||| (arg.setWidth 48 <<< 8) ||| (crc.setWidth 48 <<< 1) ||| 1#48)

/-- The encoder: the word of each row (R71, R76, R83). -/
def encode : Instr → Fetched
  | .nop v i a => encodeRequest 0 v i a
  | .frame v i a => encodeRequest 1 v i a
  | .cmdR1 v i a => encodeRequest 2 v i a
  | .cmdR3 v i a => encodeRequest 3 v i a
  | .cmdR7 v i a => encodeRequest 4 v i a
  | .csdDecode v i a => encodeRequest 5 v i a
  | .reservedOp67 w => .request w
  | .reservedOp8F w => .request w
  | .reservedOther w => .request w
  | .sdCmd0GoIdle c => encodeFrame 0#6 0#32 c
  | .sdCmd8SendIfCond c => encodeFrame 8#6 0x155#32 c
  | .sdCmd9SendCsd c => encodeFrame 9#6 0#32 c
  | .sdCmd55AppCmd c => encodeFrame 55#6 0#32 c
  | .sdAcmd41SendOpCondV1 c => encodeFrame 41#6 0#32 c
  | .sdAcmd41SendOpCondV2 c => encodeFrame 41#6 0x40000000#32 c
  | .sdCmd58ReadOcr c => encodeFrame 58#6 0#32 c
  | .sdCmd59CrcOn c => encodeFrame 59#6 1#32 c
  | .sdCmd59CrcOff c => encodeFrame 59#6 0#32 c
  | .sdAnyFrame i a c => encodeFrame i a c

/-- What `decode` reads from the word `w` of a table row of `nbits` bits, numbered as spec/opcode_table.json numbers it: a
48-bit row is a command frame (bit 47 the first sent), any other row a request word. -/
def decodeTableWord (nbits w : Nat) : Option Instr :=
  if nbits = 48 then (decode (.frame (BitVec.ofNat 48 w))).toOption
  else (decode (.request (BitVec.ofNat 64 w))).toOption

end Sys2Proof
end

