-- ==== Sys2Proof/Config.lean ====
section
/-!
DEFINITION. The implementation parameters of spec/00_scope.md R6 (a model takes each as an argument: `Params` is a field of
State, so that every statement ranges over it) and the free values the spec leaves open (notes/assumptions/10.md, 11.md).
-/

namespace Sys2Proof

/-- A raw transport status: 0 is success, anything else a failure code (R52). A code the block only compares with 0 and passes
on, so a number; it has `XSTAT_W` bits, which is a parameter (notes/assumptions/4.md). -/
abbrev XStatus := Nat

/-- The parameters of R6. -/
structure Params where
  /-- `R_FILLER_MAX`: the most filler bytes the response parser discards. -/
  rFillerMax : Nat
  /-- `XSTAT_W`: the width in bits of a raw transport status. -/
  xstatW : Nat
  /-- `ST_OK`. -/
  stOk : Byte
  /-- `ST_ERROR`. -/
  stError : Byte
  /-- `ST_TIMEOUT`. -/
  stTimeout : Byte
  /-- `ST_TRANSMISSION`: never set by the block, a code for the host's policy (R201). -/
  stTransmission : Byte
  /-- `ST_UNUSABLE`: never set by the block, a code for the host's policy (R201). -/
  stUnusable : Byte
  deriving DecidableEq, Repr

/-- The default values of R6. -/
def Params.default : Params :=
  { rFillerMax := 8, xstatW := 8, stOk := 0x00, stError := 0x01, stTimeout := 0x02, stTransmission := 0x04, stUnusable := 0x08 }

/-- Exactly one bit of the code is set. -/
def oneBit (c : Byte) : Bool := c != 0 && (c &&& (c - 1)) == 0

/-- What the spec says of every choice of the parameters: STATUS = 0x00 is OK (R25), the four error codes are each a distinct
bit (R201, quoting the source), and FILLER, which counts to `R_FILLER_MAX + 1`, and XSTAT fit the 64 bits of a host read
(notes/assumptions/3.md). -/
def Params.wf (p : Params) : Bool :=
  p.stOk == 0 && oneBit p.stError && oneBit p.stTimeout && oneBit p.stTransmission && oneBit p.stUnusable
    && decide [p.stError, p.stTimeout, p.stTransmission, p.stUnusable].Nodup
    && decide (p.rFillerMax + 1 < 2 ^ 64) && decide (p.xstatW ≤ 64)

/-- FREE VALUE. What a host reads from a result register while BUSY = 1: "A model returns any value for such a read, or refuses
it" (spec/70_reset_and_hazards.md R243; spec/93_implementation_defined.md I18). Applied to the draw counter of State. -/
opaque Config.busyRead : Nat → Word

/-- FREE VALUE. Whether a CSD.DECODE accepted in the step of a CSDBUF write sees the new byte (true) or the old one (false):
"the decode sees either the old or the new byte" (spec/93_implementation_defined.md I19, R242). Applied to the draw counter. -/
opaque Config.decodeSeesWrite : Nat → Bool

end Sys2Proof
end

