-- ==== Sys2Proof/Machine/State.lean ====
section
/-!
DEFINITION. The state of the block (spec/10_state.md R21 to R31), the model's own fields for what stands outside the block (the
host's actions, the transport's answers, the transactions made), and the state after reset (R38). Plain data.
-/

namespace Sys2Proof.Machine

/-- PHASE, the sequencer (R21). -/
inductive Phase where
  /-- No operation is running; BUSY = 0. -/
  | idle
  /-- The frame transmit transaction is outstanding. -/
  | tx
  /-- The block is receiving bytes and waiting for a byte with bit 7 = 0. -/
  | rxStatus
  /-- The block is receiving the 4 trailing bytes of an R3 or R7 response. -/
  | rxTail
  deriving DecidableEq, Repr

/-- The geometry registers (R31). -/
structure Geometry where
  /-- GEOM_VALID. -/
  valid : Bool
  /-- GEOM_VER. -/
  ver : BitVec 2
  /-- CAPACITY. -/
  capacity : BitVec 64
  /-- BL_LEN. -/
  blLen : BitVec 4
  /-- BLOCK_SIZE. -/
  blockSize : BitVec 16
  /-- CCC. -/
  ccc : BitVec 12
  /-- TRAN_SPEED_RAW. -/
  tranSpeedRaw : BitVec 8
  /-- SPEED_KBPS. -/
  speedKbps : BitVec 20
  /-- SPEED_VALID. -/
  speedValid : Bool
  /-- PARTIAL_WR. -/
  partialWr : Bool
  /-- C_SIZE. -/
  cSize : BitVec 22
  /-- C_SIZE_MULT. -/
  cSizeMult : BitVec 3
  deriving DecidableEq, Repr

/-- Every geometry register at 0: after reset (R38) and after a failed decode (R179). -/
def Geometry.zero : Geometry :=
  { valid := false, ver := 0, capacity := 0, blLen := 0, blockSize := 0, ccc := 0, tranSpeedRaw := 0, speedKbps := 0,
    speedValid := false, partialWr := false, cSize := 0, cSizeMult := 0 }

/-- The transport's answer to one transaction (R51): a status, and for a Receive the byte (a Transmit ignores it). -/
structure LinkAnswer where
  byte : Byte
  status : XStatus
  deriving DecidableEq, Repr

/-- A transport transaction the block has made (R51, R53). -/
inductive Transaction where
  | transmit (frame : Bytes 6)
  | receive
  deriving DecidableEq, Repr

/-- What the host may read: the registers of R37 and the derived values of R32. -/
inductive HostReg where
  | req
  | csdbuf (i : Fin 16)
  | busy
  | lastOp
  | status
  | xstat
  | frame (i : Fin 6)
  | resp (i : Fin 5)
  | rcount
  | filler
  | geomValid
  | geomVer
  | capacity
  | blLen
  | blockSize
  | ccc
  | tranSpeedRaw
  | speedKbps
  | speedValid
  | partialWr
  | cSize
  | cSizeMult
  | r1Idle
  | r1EraseReset
  | r1IllegalCmd
  | r1CrcErr
  | r1EraseSeqErr
  | r1AddrErr
  | r1ParamErr
  | r1Ready
  | r1IdleOnly
  | ocrBusyRaw
  | ocrCcs
  | ocrVoltOk
  | r7Echo
  | r7Vhs
  | r7Ok
  deriving DecidableEq, Repr

/-- What the host does in a step (R37, R64, R240, R242, R230). -/
inductive HostAction where
  /-- Nothing: the step is the block's. -/
  | idle
  /-- Present a request word, held until it is accepted (R240). -/
  | request (w : Word)
  /-- Write CSDBUF[i] (R23). -/
  | writeCsd (i : Fin 16) (b : Byte)
  /-- Present a request word and write CSDBUF[i] in the same step (R242). -/
  | requestWhileWriting (w : Word) (i : Fin 16) (b : Byte)
  /-- Read a register or derived value (R37). -/
  | read (r : HostReg)
  /-- Raise the block's reset (R230). -/
  | reset
  deriving DecidableEq, Repr

/-- Why a step can stop with a fault: never. The block "raises no exception and takes no trap" (R200), so there is no
constructor; every error ends an operation with a status code. Safe (notes/assumptions/17.md). -/
inductive Fault where
  deriving DecidableEq, Repr

/-- Why a step has no meaning. -/
inductive Refusal where
  /-- Raised by an arm of `exec` whose instruction has no meaning yet (none is left). Safe: the step stops. -/
  | notModelled (mnemonic : String)
  deriving DecidableEq, Repr

/-- The state. From `phase` to `geom`: the block's registers. From `host` on: the model's own fields, no part of the block
(DESIGN CHOICE, notes/assumptions/1.md, 2.md, 13.md, 22.md, 25.md). -/
structure State where
  /-- The implementation parameters (R6); no step changes them. -/
  params : Params
  /-- PHASE (R21). -/
  phase : Phase
  /-- REQ (R22). -/
  req : Word
  /-- CSDBUF[0..15] (R23). -/
  csdbuf : Bytes 16
  /-- LAST_OP (R24). -/
  lastOp : BitVec 4
  /-- STATUS (R25). -/
  status : Byte
  /-- XSTAT (R26): a status of `XSTAT_W` bits. -/
  xstat : XStatus
  /-- FRAME[0..5] (R27). -/
  frame : Bytes 6
  /-- RESP[0..4] (R28). -/
  resp : Bytes 5
  /-- RCOUNT (R29). -/
  rcount : BitVec 3
  /-- FILLER (R30): a count, as wide as `R_FILLER_MAX + 1` needs. -/
  filler : Nat
  /-- The geometry registers (R31). -/
  geom : Geometry
  /-- MODEL'S OWN. What the host does, step by step, next action first. -/
  host : List HostAction
  /-- MODEL'S OWN. The transport's coming answers, next first; when none is left, no transaction returns (R63). -/
  link : List LinkAnswer
  /-- MODEL'S OWN. The transactions made so far, newest first (the outstanding one, while BUSY, is not yet among them). -/
  wire : List Transaction
  /-- MODEL'S OWN. What the host's last read returned, zero-extended. -/
  readOut : Word
  /-- MODEL'S OWN. How many free values have been drawn. -/
  draws : Nat
  deriving DecidableEq, Repr

/-- BUSY = (PHASE ≠ IDLE) (R21). -/
def State.busy (s : State) : Bool := s.phase != .idle

/-- The state after reset: the values of R38, with the parameters at their defaults (R6) and nothing outside the block. -/
def State.reset : State :=
  { params := .default
    phase := .idle
    req := 0
    csdbuf := Vector.replicate 16 0x00
    lastOp := 0
    status := 0x00
    xstat := 0
    frame := Vector.replicate 6 0x00
    resp := Vector.replicate 5 0xFF
    rcount := 0
    filler := 0
    geom := .zero
    host := []
    link := []
    wire := []
    readOut := 0
    draws := 0 }

end Sys2Proof.Machine
end

