-- ==== Sys2Proof/Machine/Ops.lean ====
section
/-!
DEFINITION. The shared operations over the registers and the link. The block has no memory (spec/20_memory.md R50) and takes no
trap (spec/60_exceptions.md R200, R207): what stands in the place of exception entry is `finish` with an error code.
-/

namespace Sys2Proof.Machine

/-- `finish(code)`: STATUS takes the code and the block returns to idle (spec/00_scope.md R8, R21). The one way an operation
ends, and the one way it reports an error (R200). -/
def finish (code : Byte) (s : State) : State :=
  { s with status := code, phase := .idle }

/-- The latch every accepted request begins with: REQ, LAST_OP, XSTAT (R105, R240 item 1; also of a refused one, R205). -/
def latch (w : Word) (s : State) : State :=
  { s with req := w, lastOp := reqOp w, xstat := 0 }

/-- What a refused request does beyond the latch: STATUS, and nothing else (R205). -/
def refuseRequest (s : State) : State :=
  finish s.params.stError s

/-- `BuildFrame(idx, arg)` writes all six bytes of FRAME (R104). -/
def writeFrame (idx : BitVec 6) (arg : BitVec 32) (s : State) : State :=
  { s with frame := buildFrame idx arg }

/-- RESP, RCOUNT and FILLER as every CMD.Rx sets them before it transmits (R28, R29, R30, R120). -/
def presetResponse (s : State) : State :=
  { s with resp := Vector.replicate 5 0xFF, rcount := 0, filler := 0 }

/-- `SendCommand` up to its Transmit (R120): the presets, the frame, PHASE ← TX. -/
def startCommand (idx : BitVec 6) (arg : BitVec 32) (s : State) : State :=
  { writeFrame idx arg (presetResponse s) with phase := .tx }

/-- A failed transaction ends the operation at once with ST_ERROR and XSTAT = its status (R121). -/
def failLink (ts : XStatus) (s : State) : State :=
  finish s.params.stError { s with xstat := ts }

/-- A transaction returns: its answer is taken from the link, and it counts as made (R53, R60). -/
def answered (t : Transaction) (rest : List LinkAnswer) (s : State) : State :=
  { s with link := rest, wire := t :: s.wire }

/-- `ts <- Transmit(F[0..5])` and what follows it (R120, R121). With no answer left the transaction has not returned and
nothing changes (R63; DESIGN CHOICE, notes/assumptions/1.md). -/
def transmit (f : Bytes 6) (s : State) : State :=
  match s.link with
  | [] => s
  | a :: rest =>
    if a.status ≠ 0 then failLink a.status (answered (.transmit f) rest s)
    else { answered (.transmit f) rest s with phase := .rxStatus }

/-- A received byte with bit 7 = 0 is the status byte (R79): stored, and the operation goes on to the trailing bytes of its
response type or finishes (R120). -/
def storeStatusByte (b : Byte) (s : State) : State :=
  if 0 < tailCount (reqOp s.req) then { s with resp := s.resp.set 0 b, rcount := 1, phase := .rxTail }
  else finish s.params.stOk { s with resp := s.resp.set 0 b, rcount := 1 }

/-- A received byte with bit 7 = 1 before the status byte is filler: counted and discarded, a timeout past the bound (R122). -/
def countFiller (s : State) : State :=
  if s.params.rFillerMax < s.filler + 1 then finish s.params.stTimeout { s with filler := s.filler + 1 }
  else { s with filler := s.filler + 1 }

/-- One Receive of the status loop of `SendCommand` (R120): its status is looked at before its byte (R204). -/
def receiveStatus (s : State) : State :=
  match s.link with
  | [] => s
  | a :: rest =>
    if a.status ≠ 0 then failLink a.status (answered .receive rest s)
    else if a.byte.getLsbD 7 then countFiller (answered .receive rest s)
    else storeStatusByte a.byte (answered .receive rest s)

/-- Trailing byte k = RCOUNT is stored whatever its value (R123), and the last one finishes the operation (R120; DEDUCED,
notes/assumptions/9.md). -/
def storeTailByte (b : Byte) (s : State) : State :=
  if tailCount (reqOp s.req) ≤ s.rcount.toNat then
    finish s.params.stOk { s with resp := s.resp.setIfInBounds s.rcount.toNat b, rcount := s.rcount + 1 }
  else { s with resp := s.resp.setIfInBounds s.rcount.toNat b, rcount := s.rcount + 1 }

/-- One Receive of the trailing bytes of `SendCommand` (R120). -/
def receiveTail (s : State) : State :=
  match s.link with
  | [] => s
  | a :: rest =>
    if a.status ≠ 0 then failLink a.status (answered .receive rest s)
    else storeTailByte a.byte (answered .receive rest s)

/-- The transaction that is outstanding in a phase, if any (R21). -/
def outstanding (s : State) : List Transaction :=
  match s.phase with
  | .idle => []
  | .tx => [.transmit s.frame]
  | .rxStatus => [.receive]
  | .rxTail => [.receive]

/-- The block's reset (R230): every register to its value of R38, the operation abandoned, the outstanding transaction's answer
discarded. It starts no transaction (R231). The parameters and the world outside the block stay (DESIGN CHOICE,
notes/assumptions/12.md). -/
def resetBlock (s : State) : State :=
  { State.reset with
    params := s.params
    host := s.host
    link := if s.busy then s.link.tail else s.link
    wire := outstanding s ++ s.wire
    readOut := s.readOut
    draws := s.draws }

end Sys2Proof.Machine
end

