-- ==== Sys2Proof/Machine/Command.lean ====
section
/-!
DEFINITION. The meanings of CMD.R1, CMD.R3 and CMD.R7 (spec/41_command_response.md R120, R125 to R127): the accepting step of
`SendCommand`. Its transactions are the steps that follow, one each (`transmit`, `receiveStatus`, `receiveTail`); the number of
trailing bytes comes from the OP that REQ holds.
-/

namespace Sys2Proof.Machine

/-- CMD.R1 idx, arg: `SendCommand(idx, arg, 0)` (R125). -/
def execCmdR1 (_ver : BitVec 2) (idx : BitVec 6) (arg : BitVec 32) (s : State) : Host.Outcome State Fault Refusal :=
  .next (startCommand idx arg s)

/-- CMD.R3 idx, arg: `SendCommand(idx, arg, 4)` (R126). -/
def execCmdR3 (_ver : BitVec 2) (idx : BitVec 6) (arg : BitVec 32) (s : State) : Host.Outcome State Fault Refusal :=
  .next (startCommand idx arg s)

/-- CMD.R7 idx, arg: `SendCommand(idx, arg, 4)` (R127). -/
def execCmdR7 (_ver : BitVec 2) (idx : BitVec 6) (arg : BitVec 32) (s : State) : Host.Outcome State Fault Refusal :=
  .next (startCommand idx arg s)

end Sys2Proof.Machine
end

