-- ==== Sys2Proof/Machine/Csd.lean ====
section
/-!
DEFINITION. The CSD decoder and the meaning of CSD.DECODE (spec/42_csd_decoder.md). The field positions and table values are the
spec's own (R162, R165, R166); it marks them as general knowledge.
-/

namespace Sys2Proof.Machine

/-- `UNIT10[unit]` for unit codes 0 to 3 (R165). -/
def unit10 : List Nat := [10, 100, 1000, 10000]

/-- `TV10[tv]` (R166). -/
def tv10 : List Nat := [0, 10, 12, 13, 15, 20, 25, 30, 35, 40, 45, 50, 55, 60, 70, 80]

/-- The transfer-rate unit code, TRAN_SPEED[2:0] (R164). -/
def speedUnit (t : Byte) : BitVec 3 := t.extractLsb' 0 3

/-- The time-value code, TRAN_SPEED[6:3]; bit 7 is ignored (R164). -/
def speedTimeValue (t : Byte) : BitVec 4 := t.extractLsb' 3 4

/-- SPEED_KBPS (R167): 0 for a unit code outside the 4-entry table. -/
def speedKbps (t : Byte) : BitVec 20 :=
  BitVec.ofNat 20 (unit10.getD (speedUnit t).toNat 0 * tv10.getD (speedTimeValue t).toNat 0)

/-- SPEED_VALID (R167). -/
def speedValid (t : Byte) : Bool :=
  decide ((speedUnit t).toNat ≤ 3) && speedTimeValue t != 0

/-- TRAN_SPEED, CSD[103:96] (R162). -/
def csdTranSpeed (b : Bytes 16) : Byte := csdField b 96 8
/-- CCC, CSD[95:84] (R168). -/
def csdCcc (b : Bytes 16) : BitVec 12 := csdField b 84 12
/-- READ_BL_LEN, CSD[83:80] (R169). -/
def csdReadBlLen (b : Bytes 16) : BitVec 4 := csdField b 80 4
/-- WRITE_BL_PARTIAL, CSD(21) (R170). -/
def csdWriteBlPartial (b : Bytes 16) : Bool := csdBit b 21
/-- C_SIZE of a v1 card, CSD[73:62] (R171). -/
def csdCSizeV1 (b : Bytes 16) : BitVec 12 := csdField b 62 12
/-- C_SIZE_MULT of a v1 card, CSD[49:47] (R172). -/
def csdCSizeMult (b : Bytes 16) : BitVec 3 := csdField b 47 3
/-- C_SIZE of a v2 card, CSD[69:48] (R174). -/
def csdCSizeV2 (b : Bytes 16) : BitVec 22 := csdField b 48 22

/-- BLOCK_SIZE = 2^BL_LEN (R169). -/
def blockSize (blLen : BitVec 4) : BitVec 16 := 1#16 <<< blLen.toNat

/-- v1 capacity: `zext_64(C_SIZE + 1) << (C_SIZE_MULT + 2 + BL_LEN)` (R173). -/
def capacityV1 (cSize : BitVec 22) (mult : BitVec 3) (blLen : BitVec 4) : BitVec 64 :=
  (cSize.setWidth 64 + 1) <<< (mult.toNat + 2 + blLen.toNat)

/-- v2 capacity: `zext_64(C_SIZE + 1) * 512`, the source's formula (R175; spec/90_conflicts.md C10). -/
def capacityV2 (cSize : BitVec 22) : BitVec 64 :=
  (cSize.setWidth 64 + 1) * 512

/-- The registers both layouts fill alike (R178); the size fields still at 0. -/
def decodeCommon (ver : BitVec 2) (b : Bytes 16) : Geometry :=
  { Geometry.zero with
    valid := true
    ver := ver
    blLen := csdReadBlLen b
    blockSize := blockSize (csdReadBlLen b)
    ccc := csdCcc b
    tranSpeedRaw := csdTranSpeed b
    speedKbps := speedKbps (csdTranSpeed b)
    speedValid := speedValid (csdTranSpeed b)
    partialWr := csdWriteBlPartial b }

/-- A v1 decode (R171, R172, R173). -/
def decodeV1 (b : Bytes 16) : Geometry :=
  { decodeCommon 1 b with
    cSize := (csdCSizeV1 b).setWidth 22
    cSizeMult := csdCSizeMult b
    capacity := capacityV1 ((csdCSizeV1 b).setWidth 22) (csdCSizeMult b) (csdReadBlLen b) }

/-- A v2 decode (R174, R175). -/
def decodeV2 (b : Bytes 16) : Geometry :=
  { decodeCommon 2 b with
    cSize := csdCSizeV2 b
    cSizeMult := 0
    capacity := capacityV2 (csdCSizeV2 b) }

/-- The geometry registers are written as one (R31: only CSD.DECODE writes them). -/
def writeGeometry (g : Geometry) (s : State) : State :=
  { s with geom := g }

/-- CSD.DECODE ver (R178): the layout follows VER alone (R161); versions 0 and 3 fail with every geometry register 0 (R179). -/
def execCsdDecode (ver : BitVec 2) (_idx : BitVec 6) (_arg : BitVec 32) (s : State) : Host.Outcome State Fault Refusal :=
  if ver = 1#2 then .next (finish s.params.stOk (writeGeometry (decodeV1 s.csdbuf) s))
  else if ver = 2#2 then .next (finish s.params.stOk (writeGeometry (decodeV2 s.csdbuf) s))
  else .next (finish s.params.stError (writeGeometry .zero s))

end Sys2Proof.Machine
end

