-- ==== Sys2Proof/Machine/Requests.lean ====
section
/-!
DEFINITION. The meanings of NOP and FRAME (spec/40_framing.md R106, R107) and of the refused words (spec/60_exceptions.md
R205). Each runs in a state whose request is already latched (R105).
-/

namespace Sys2Proof.Machine

/-- NOP: `finish(ST_OK)` (R106). IDX, ARG and VER are ignored (R73). -/
def execNop (_ver : BitVec 2) (_idx : BitVec 6) (_arg : BitVec 32) (s : State) : Host.Outcome State Fault Refusal :=
  .next (finish s.params.stOk s)

/-- FRAME idx, arg: `BuildFrame(idx, arg); finish(ST_OK)` (R107). -/
def execFrame (_ver : BitVec 2) (idx : BitVec 6) (arg : BitVec 32) (s : State) : Host.Outcome State Fault Refusal :=
  .next (finish s.params.stOk (writeFrame idx arg s))

/-- OP 0x6 or 0x7: refused (R205). -/
def execReservedOp67 (_word : Word) (s : State) : Host.Outcome State Fault Refusal :=
  .next (refuseRequest s)

/-- OP 0x8 to 0xF: refused (R205). -/
def execReservedOp8F (_word : Word) (s : State) : Host.Outcome State Fault Refusal :=
  .next (refuseRequest s)

/-- OP 0x0 to 0x5 with a reserved bit set: refused (R205). -/
def execReservedOther (_word : Word) (s : State) : Host.Outcome State Fault Refusal :=
  .next (refuseRequest s)

end Sys2Proof.Machine
end

