-- ==== Sys2Proof/Machine/WireFrames.lean ====
section
/-!
DEFINITION. The meanings of the command-frame rows of the opcode table (spec/30_encoding.md R76, R83): a frame is what the block
sends, so its effect on the block is the Transmit transaction that carries it (spec/41_command_response.md R120, R121), run in
phase TX. Which response follows is fixed by the operation in REQ, never by the frame (R71, R123). The checksum field goes out
as it stands: the block checks no CRC when it sends (R102, R103). DEDUCED, notes/assumptions/5.md.
-/

namespace Sys2Proof.Machine

/-- Transmit of SD.CMD0 GO_IDLE. -/
def execSdCmd0GoIdle (crc : BitVec 7) (s : State) : Host.Outcome State Fault Refusal :=
  .next (transmit (frameBytes 0#6 0#32 crc) s)

/-- Transmit of SD.CMD8 SEND_IF_COND. -/
def execSdCmd8SendIfCond (crc : BitVec 7) (s : State) : Host.Outcome State Fault Refusal :=
  .next (transmit (frameBytes 8#6 0x155#32 crc) s)

/-- Transmit of SD.CMD9 SEND_CSD. -/
def execSdCmd9SendCsd (crc : BitVec 7) (s : State) : Host.Outcome State Fault Refusal :=
  .next (transmit (frameBytes 9#6 0#32 crc) s)

/-- Transmit of SD.CMD55 APP_CMD. -/
def execSdCmd55AppCmd (crc : BitVec 7) (s : State) : Host.Outcome State Fault Refusal :=
  .next (transmit (frameBytes 55#6 0#32 crc) s)

/-- Transmit of SD.ACMD41 SEND_OP_COND v1. -/
def execSdAcmd41SendOpCondV1 (crc : BitVec 7) (s : State) : Host.Outcome State Fault Refusal :=
  .next (transmit (frameBytes 41#6 0#32 crc) s)

/-- Transmit of SD.ACMD41 SEND_OP_COND v2. -/
def execSdAcmd41SendOpCondV2 (crc : BitVec 7) (s : State) : Host.Outcome State Fault Refusal :=
  .next (transmit (frameBytes 41#6 0x40000000#32 crc) s)

/-- Transmit of SD.CMD58 READ_OCR. -/
def execSdCmd58ReadOcr (crc : BitVec 7) (s : State) : Host.Outcome State Fault Refusal :=
  .next (transmit (frameBytes 58#6 0#32 crc) s)

/-- Transmit of SD.CMD59 CRC_ON. -/
def execSdCmd59CrcOn (crc : BitVec 7) (s : State) : Host.Outcome State Fault Refusal :=
  .next (transmit (frameBytes 59#6 1#32 crc) s)

/-- Transmit of SD.CMD59 CRC_OFF. -/
def execSdCmd59CrcOff (crc : BitVec 7) (s : State) : Host.Outcome State Fault Refusal :=
  .next (transmit (frameBytes 59#6 0#32 crc) s)

/-- Transmit of any other command frame (R77). -/
def execSdAnyFrame (idx : BitVec 6) (arg : BitVec 32) (crc : BitVec 7) (s : State) : Host.Outcome State Fault Refusal :=
  .next (transmit (frameBytes idx arg crc) s)

end Sys2Proof.Machine
end

