-- ==== Sys2Proof/Machine/Dispatch.lean ====
section
/-!
DEFINITION. One arm per instruction. A request word's meaning runs in a state that has latched it; a frame's in phase TX.
-/

namespace Sys2Proof.Machine

def exec (i : Instr) (s : State) : Host.Outcome State Fault Refusal :=
  match i with
  | .nop ver idx arg => Sys2Proof.Machine.execNop ver idx arg s
  | .frame ver idx arg => Sys2Proof.Machine.execFrame ver idx arg s
  | .cmdR1 ver idx arg => Sys2Proof.Machine.execCmdR1 ver idx arg s
  | .cmdR3 ver idx arg => Sys2Proof.Machine.execCmdR3 ver idx arg s
  | .cmdR7 ver idx arg => Sys2Proof.Machine.execCmdR7 ver idx arg s
  | .csdDecode ver idx arg => Sys2Proof.Machine.execCsdDecode ver idx arg s
  | .reservedOp67 word => Sys2Proof.Machine.execReservedOp67 word s
  | .reservedOp8F word => Sys2Proof.Machine.execReservedOp8F word s
  | .reservedOther word => Sys2Proof.Machine.execReservedOther word s
  | .sdCmd0GoIdle crc => Sys2Proof.Machine.execSdCmd0GoIdle crc s
  | .sdCmd8SendIfCond crc => Sys2Proof.Machine.execSdCmd8SendIfCond crc s
  | .sdCmd9SendCsd crc => Sys2Proof.Machine.execSdCmd9SendCsd crc s
  | .sdCmd55AppCmd crc => Sys2Proof.Machine.execSdCmd55AppCmd crc s
  | .sdAcmd41SendOpCondV1 crc => Sys2Proof.Machine.execSdAcmd41SendOpCondV1 crc s
  | .sdAcmd41SendOpCondV2 crc => Sys2Proof.Machine.execSdAcmd41SendOpCondV2 crc s
  | .sdCmd58ReadOcr crc => Sys2Proof.Machine.execSdCmd58ReadOcr crc s
  | .sdCmd59CrcOn crc => Sys2Proof.Machine.execSdCmd59CrcOn crc s
  | .sdCmd59CrcOff crc => Sys2Proof.Machine.execSdCmd59CrcOff crc s
  | .sdAnyFrame idx arg crc => Sys2Proof.Machine.execSdAnyFrame idx arg crc s

end Sys2Proof.Machine
end

