-- ==== Sys2Proof/Machine/Flags.lean ====
section
/-!
DEFINITION. The derived values of spec/10_state.md R32: combinational functions of RESP alone (spec/41_command_response.md
R130 to R134), and the conditions under which a host may use them (R131, spec/70_reset_and_hazards.md R244).
-/

namespace Sys2Proof.Machine

/-- IDLE = RESP[0][0] (R130). -/
def r1Idle (r : Bytes 5) : Bool := r[0].getLsbD 0
/-- ERASE_RESET = RESP[0][1]. -/
def r1EraseReset (r : Bytes 5) : Bool := r[0].getLsbD 1
/-- ILLEGAL_CMD = RESP[0][2]. -/
def r1IllegalCmd (r : Bytes 5) : Bool := r[0].getLsbD 2
/-- CRC_ERR = RESP[0][3]. -/
def r1CrcErr (r : Bytes 5) : Bool := r[0].getLsbD 3
/-- ERASE_SEQ_ERR = RESP[0][4]. -/
def r1EraseSeqErr (r : Bytes 5) : Bool := r[0].getLsbD 4
/-- ADDR_ERR = RESP[0][5]. -/
def r1AddrErr (r : Bytes 5) : Bool := r[0].getLsbD 5
/-- PARAM_ERR = RESP[0][6]. -/
def r1ParamErr (r : Bytes 5) : Bool := r[0].getLsbD 6
/-- R1_READY: the status byte is 0x00 (R130). -/
def r1Ready (r : Bytes 5) : Bool := r[0] == 0x00
/-- R1_IDLE_ONLY: the status byte is exactly 0x01 (R130). -/
def r1IdleOnly (r : Bytes 5) : Bool := r[0] == 0x01

/-- OCR_BUSY_RAW = RESP[1][7], OCR bit 31 (R132). -/
def ocrBusyRaw (r : Bytes 5) : Bool := r[1].getLsbD 7
/-- OCR_CCS = RESP[1][6], OCR bit 30 (R132; spec/90_conflicts.md C1). -/
def ocrCcs (r : Bytes 5) : Bool := r[1].getLsbD 6
/-- OCR_VOLT_OK: all of 0x1F in OCR byte 1 and bit 7 of OCR byte 2 (R133; spec/90_conflicts.md C2). -/
def ocrVoltOk (r : Bytes 5) : Bool := (r[2] &&& 0x1F) == 0x1F && r[3].getLsbD 7

/-- R7_ECHO = RESP[4] (R134). -/
def r7Echo (r : Bytes 5) : Byte := r[4]
/-- R7_VHS = RESP[3][3:0] (R134). -/
def r7Vhs (r : Bytes 5) : BitVec 4 := r[3].extractLsb' 0 4
/-- R7_OK: the echo is 0x55 and the voltage field 1, constants whatever argument was sent (R134). -/
def r7Ok (r : Bytes 5) : Bool := r7Echo r == 0x55 && r7Vhs r == 0x1

/-- The host may use the R1 flags (R131, R244): the last operation was a CMD.Rx that finished OK and stored a status byte. -/
def r1Usable (s : State) : Bool :=
  !s.busy && s.status == s.params.stOk && (s.lastOp == 2 || s.lastOp == 3 || s.lastOp == 4) && decide (1 ≤ s.rcount.toNat)

/-- The host may use the OCR fields (R131, R244). -/
def ocrUsable (s : State) : Bool :=
  !s.busy && s.status == s.params.stOk && s.lastOp == 3 && s.rcount == 5

/-- The host may use the R7 fields (R131, R244). -/
def r7Usable (s : State) : Bool :=
  !s.busy && s.status == s.params.stOk && s.lastOp == 4 && s.rcount == 5

end Sys2Proof.Machine
end

