-- ==== Sys2Proof/Machine/HostPort.lean ====
section
/-!
DEFINITION. The host's register interface (spec/10_state.md R37): CSDBUF writes (R23, R242) and reads of every register and
derived value (R32), with what a read returns while BUSY = 1 left open (spec/70_reset_and_hazards.md R243).
-/

namespace Sys2Proof.Machine

/-- The host writes CSDBUF[i] (R23). -/
def writeCsd (i : Fin 16) (b : Byte) (s : State) : State :=
  { s with csdbuf := s.csdbuf.set i b }

/-- The register's width in bits (R22 to R31; a derived flag has 1). XSTAT has `XSTAT_W` bits (R6), FILLER the fewest that hold
`R_FILLER_MAX + 1` (R30). -/
def regWidth (p : Params) : HostReg → Nat
  | .req | .capacity => 64
  | .filler => (p.rFillerMax + 1).log2 + 1
  | .csdbuf _ | .status | .frame _ | .resp _ | .tranSpeedRaw | .r7Echo => 8
  | .xstat => p.xstatW
  | .lastOp | .blLen | .r7Vhs => 4
  | .rcount | .cSizeMult => 3
  | .geomVer => 2
  | .blockSize => 16
  | .ccc => 12
  | .speedKbps => 20
  | .cSize => 22
  | .busy | .geomValid | .speedValid | .partialWr => 1
  | .r1Idle | .r1EraseReset | .r1IllegalCmd | .r1CrcErr | .r1EraseSeqErr | .r1AddrErr | .r1ParamErr => 1
  | .r1Ready | .r1IdleOnly | .ocrBusyRaw | .ocrCcs | .ocrVoltOk | .r7Ok => 1

/-- A flag as a word. -/
def flagWord (b : Bool) : Word := (BitVec.ofBool b).setWidth 64

/-- The register's value, zero-extended (R22 to R32). -/
def regValue (s : State) : HostReg → Word
  | .req => s.req
  | .csdbuf i => s.csdbuf[i].setWidth 64
  | .busy => flagWord s.busy
  | .lastOp => s.lastOp.setWidth 64
  | .status => s.status.setWidth 64
  | .xstat => BitVec.ofNat 64 s.xstat
  | .frame i => s.frame[i].setWidth 64
  | .resp i => s.resp[i].setWidth 64
  | .rcount => s.rcount.setWidth 64
  | .filler => BitVec.ofNat 64 s.filler
  | .geomValid => flagWord s.geom.valid
  | .geomVer => s.geom.ver.setWidth 64
  | .capacity => s.geom.capacity
  | .blLen => s.geom.blLen.setWidth 64
  | .blockSize => s.geom.blockSize.setWidth 64
  | .ccc => s.geom.ccc.setWidth 64
  | .tranSpeedRaw => s.geom.tranSpeedRaw.setWidth 64
  | .speedKbps => s.geom.speedKbps.setWidth 64
  | .speedValid => flagWord s.geom.speedValid
  | .partialWr => flagWord s.geom.partialWr
  | .cSize => s.geom.cSize.setWidth 64
  | .cSizeMult => s.geom.cSizeMult.setWidth 64
  | .r1Idle => flagWord (r1Idle s.resp)
  | .r1EraseReset => flagWord (r1EraseReset s.resp)
  | .r1IllegalCmd => flagWord (r1IllegalCmd s.resp)
  | .r1CrcErr => flagWord (r1CrcErr s.resp)
  | .r1EraseSeqErr => flagWord (r1EraseSeqErr s.resp)
  | .r1AddrErr => flagWord (r1AddrErr s.resp)
  | .r1ParamErr => flagWord (r1ParamErr s.resp)
  | .r1Ready => flagWord (r1Ready s.resp)
  | .r1IdleOnly => flagWord (r1IdleOnly s.resp)
  | .ocrBusyRaw => flagWord (ocrBusyRaw s.resp)
  | .ocrCcs => flagWord (ocrCcs s.resp)
  | .ocrVoltOk => flagWord (ocrVoltOk s.resp)
  | .r7Echo => (r7Echo s.resp).setWidth 64
  | .r7Vhs => (r7Vhs s.resp).setWidth 64
  | .r7Ok => flagWord (r7Ok s.resp)

/-- A read of this register settles even while BUSY = 1: REQ, CSDBUF and BUSY may be read at any time, and no running operation
touches the geometry registers. The others are no result until BUSY = 0 (R37, R243; DESIGN CHOICE, notes/assumptions/25.md). -/
def settledWhileBusy : HostReg → Bool
  | .req | .csdbuf _ | .busy => true
  | .geomValid | .geomVer | .capacity | .blLen | .blockSize | .ccc => true
  | .tranSpeedRaw | .speedKbps | .speedValid | .partialWr | .cSize | .cSizeMult => true
  | .lastOp | .status | .xstat | .frame _ | .resp _ | .rcount | .filler => false
  | .r1Idle | .r1EraseReset | .r1IllegalCmd | .r1CrcErr | .r1EraseSeqErr | .r1AddrErr | .r1ParamErr => false
  | .r1Ready | .r1IdleOnly | .ocrBusyRaw | .ocrCcs | .ocrVoltOk | .r7Echo | .r7Vhs | .r7Ok => false

/-- The host reads a register: it returns the register's value, or a free value of its width where R243 leaves it open. -/
def readReg (r : HostReg) (s : State) : State :=
  if s.busy && !settledWhileBusy r then
    { s with readOut := ((Config.busyRead s.draws).setWidth (regWidth s.params r)).setWidth 64, draws := s.draws + 1 }
  else { s with readOut := regValue s r }

/-- `LOADCSD b0 b1 ... b15` (spec/30_encoding.md R86): sixteen host writes, CSDBUF[0] first. -/
def loadCsd (b : Bytes 16) : List HostAction :=
  (List.finRange 16).map fun i => .writeCsd i b[i]

end Sys2Proof.Machine
end

