-- ==== Sys2Proof/Machine/Sequencer.lean ====
section
/-!
DEFINITION. How the block moves: accepting a request (spec/70_reset_and_hazards.md R240), the transaction of the current phase
(spec/10_state.md R21, spec/41_command_response.md R120), and a CSDBUF write in the accepting step (R242).
-/

namespace Sys2Proof.Machine

/-- An outcome's next state, changed. -/
def mapNext (f : State → State) : Host.Outcome State Fault Refusal → Host.Outcome State Fault Refusal
  | .next s => .next (f s)
  | .fault r => .fault r
  | .refused r => .refused r

/-- The accepting step (R240): latch the word, then run the operation it decodes to (a refused word decodes to its reserved
row, R74). -/
def accept (w : Word) (s : State) : Host.Outcome State Fault Refusal :=
  exec (decodeRequest w) (latch w s)

/-- Phase TX: the frame in FRAME goes out (R120). It is fetched as a command frame; bytes that are none (no run leaves such in
FRAME while in TX) are sent as they stand (DESIGN CHOICE, notes/assumptions/8.md). -/
def sendFrame (s : State) : Host.Outcome State Fault Refusal :=
  match decode (.frame (frameToBits s.frame)) with
  | .ok i => exec i s
  | .error _ => .next (transmit s.frame s)

/-- The block's own move: the transaction of its phase, or nothing while idle (R21). -/
def advance (s : State) : Host.Outcome State Fault Refusal :=
  match s.phase with
  | .idle => .next s
  | .tx => sendFrame s
  | .rxStatus => .next (receiveStatus s)
  | .rxTail => .next (receiveTail s)

/-- A request accepted in the step of a CSDBUF write: the operation sees the old byte or the new one, which of them is left open
(R242; spec/93_implementation_defined.md I19), and the write takes effect. -/
def acceptWhileWriting (w : Word) (i : Fin 16) (b : Byte) (s : State) : Host.Outcome State Fault Refusal :=
  if Config.decodeSeesWrite s.draws then accept w (writeCsd i b { s with draws := s.draws + 1 })
  else mapNext (writeCsd i b) (accept w { s with draws := s.draws + 1 })

/-- One step (R37, R64, R240): the host's action of this step is taken, and where it leaves the step to the block, the block
moves. A request presented while BUSY = 1 has no effect and stays with the host (R240; DESIGN CHOICE for the schedule,
notes/assumptions/2.md). -/
def hostStep (s : State) : Host.Outcome State Fault Refusal :=
  match s.host with
  | [] => advance s
  | .idle :: rest => advance { s with host := rest }
  | .request w :: rest => if s.busy then advance s else accept w { s with host := rest }
  | .writeCsd i b :: rest => .next (writeCsd i b { s with host := rest })
  | .requestWhileWriting w i b :: rest =>
    if s.busy then .next (writeCsd i b { s with host := .request w :: rest })
    else acceptWhileWriting w i b { s with host := rest }
  | .read r :: rest => .next (readReg r { s with host := rest })
  | .reset :: rest => .next (resetBlock { s with host := rest })

/-- The host presents `w` as its next action, to a block that is not busy. -/
def presentRequest (w : Word) (s : State) : State :=
  { s with phase := .idle, host := .request w :: s.host }

/-- The frame `f` stands ready to be transmitted, and the next step is left to the block. -/
def placeFrame (f : BitVec 48) (s : State) : State :=
  { s with phase := .tx, frame := frameOfBits f, host := .idle :: s.host }

end Sys2Proof.Machine
end

