-- ==== Sys2Proof/Machine/Step.lean ====
section
/-!
DEFINITION. The step, and the placing of a table row's word where the step fetches it.
-/

namespace Sys2Proof.Machine

/-- One step of the block and its host. -/
def step (s : State) : Host.Outcome State Fault Refusal := hostStep s

/-- The state with the word `w` of a table row of `nbits` bits where `step` fetches its next instruction: a request word is the
host's next action, a command frame stands in FRAME in phase TX (DESIGN CHOICE, notes/assumptions/14.md). -/
def State.withFetchWord (s : State) (nbits w : Nat) : State :=
  if nbits = 48 then placeFrame (BitVec.ofNat 48 w) s else presentRequest (BitVec.ofNat 64 w) s

end Sys2Proof.Machine
end

