-- ==== Sys2Proof/Machine/Commands.lean ====
section
/-!
DEFINITION. The commands of spec/30_encoding.md R83 as the pseudo-operations of R87, and the spelling of an operation in the
assembler's form of R86.
-/

namespace Sys2Proof.Machine

/-- The operation a pseudo-operation stands for (R87). -/
def expandPseudo : Pseudo → Instr
  | .goIdle => .cmdR1 0 0 0
  | .sendIfCond => .cmdR7 0 8 0x155
  | .crcOn => .cmdR1 0 59 1
  | .crcOff => .cmdR1 0 59 0
  | .readOcr => .cmdR3 0 58 0
  | .appCmd => .cmdR1 0 55 0
  | .sendOpCondV1 => .cmdR1 0 41 0
  | .sendOpCondV2 => .cmdR1 0 41 0x40000000
  | .sendCsd => .cmdR1 0 9 0

/-- The frame row a pseudo-operation puts on the link (R83, R84, R85). -/
def pseudoFrame : Pseudo → Instr
  | .goIdle => .sdCmd0GoIdle (frameCrc 0#6 0#32)
  | .sendIfCond => .sdCmd8SendIfCond (frameCrc 8#6 0x155#32)
  | .crcOn => .sdCmd59CrcOn (frameCrc 59#6 1#32)
  | .crcOff => .sdCmd59CrcOff (frameCrc 59#6 0#32)
  | .readOcr => .sdCmd58ReadOcr (frameCrc 58#6 0#32)
  | .appCmd => .sdCmd55AppCmd (frameCrc 55#6 0#32)
  | .sendOpCondV1 => .sdAcmd41SendOpCondV1 (frameCrc 41#6 0#32)
  | .sendOpCondV2 => .sdAcmd41SendOpCondV2 (frameCrc 41#6 0x40000000#32)
  | .sendCsd => .sdCmd9SendCsd (frameCrc 9#6 0#32)

/-- One hex digit. -/
def hexDigit (d : BitVec 4) : Char :=
  ['0', '1', '2', '3', '4', '5', '6', '7', '8', '9', 'A', 'B', 'C', 'D', 'E', 'F'].getD d.toNat '0'

/-- `0x` and eight hex digits, as R86 writes an argument. -/
def hexArg (a : BitVec 32) : String :=
  String.ofList ('0' :: 'x' :: [28, 24, 20, 16, 12, 8, 4, 0].map fun lo => hexDigit (a.extractLsb' lo 4))

/-- `<mnemonic> <idx>, <arg>` (R86). -/
def spellCommand (mnemonic : String) (idx : BitVec 6) (arg : BitVec 32) : String :=
  mnemonic ++ " " ++ toString idx.toNat ++ ", " ++ hexArg arg

/-- An operation as R86 writes it; a refused word and a command frame have no spelling there. -/
def spell : Instr → Option String
  | .nop _ _ _ => some "NOP"
  | .frame _ i a => some (spellCommand "FRAME" i a)
  | .cmdR1 _ i a => some (spellCommand "CMD.R1" i a)
  | .cmdR3 _ i a => some (spellCommand "CMD.R3" i a)
  | .cmdR7 _ i a => some (spellCommand "CMD.R7" i a)
  | .csdDecode v _ _ => some ("CSD.DECODE " ++ toString v.toNat)
  | .reservedOp67 _ => none
  | .reservedOp8F _ => none
  | .reservedOther _ => none
  | .sdCmd0GoIdle _ => none
  | .sdCmd8SendIfCond _ => none
  | .sdCmd9SendCsd _ => none
  | .sdCmd55AppCmd _ => none
  | .sdAcmd41SendOpCondV1 _ => none
  | .sdAcmd41SendOpCondV2 _ => none
  | .sdCmd58ReadOcr _ => none
  | .sdCmd59CrcOn _ => none
  | .sdCmd59CrcOff _ => none
  | .sdAnyFrame _ _ _ => none

end Sys2Proof.Machine
end

