-- ==== Sys2Proof/Safety.lean ====
section
/-!
DEFINITION. The terms claims are stated in: the invariant of the block's registers (what spec/10_state.md and
spec/41_command_response.md say of them between steps), and the shapes of a CMD.Rx and of the transport's answers to it.
-/

namespace Sys2Proof.Machine

/-- The word is a CMD.R1, CMD.R3 or CMD.R7 that is not refused (R71, R74). -/
def isCommand (w : Word) : Bool :=
  reservedClear w && (reqOp w == 2#4 || reqOp w == 3#4 || reqOp w == 4#4)

/-- The host leaves the coming steps to the block: it does nothing, or holds a request that must wait for BUSY = 0 (R240). -/
def hostWaits : List HostAction → Bool
  | [] => true
  | .request _ :: _ => true
  | _ => false

/-- The geometry registers hang together (R31, R169, R173, R175, R177, R179): all 0 unless valid; a valid set belongs to version
1 or 2, its block size and capacity are the exact values of its raw fields, and its speed is one the tables give. -/
structure Geometry.Consistent (g : Geometry) : Prop where
  zero_unless_valid : g.valid = false → g = .zero
  version : g.valid = true → g.ver = 1 ∨ g.ver = 2
  block_size : g.valid = true → g.blockSize.toNat = 2 ^ g.blLen.toNat
  capacity_v1 : g.valid = true → g.ver = 1 →
    g.cSize.toNat < 4096 ∧ g.capacity.toNat = (g.cSize.toNat + 1) * 2 ^ (g.cSizeMult.toNat + 2) * g.blockSize.toNat
  capacity_v2 : g.valid = true → g.ver = 2 →
    g.cSizeMult = 0 ∧ g.capacity.toNat = (g.cSize.toNat + 1) * 512
  speed : g.speedValid = true ↔ g.speedKbps ≠ 0

/-- The invariant of the block's registers between steps. -/
structure State.Inv (s : State) : Prop where
  /-- The parameters are such as the spec allows (R6, R25, R201). -/
  params_wf : s.params.wf = true
  /-- LAST_OP is the OP of the latched request (R22, R24). -/
  last_op : s.lastOp = reqOp s.req
  /-- STATUS holds one of the three codes the block reports (R201, R203). -/
  status_code : s.status = s.params.stOk ∨ s.status = s.params.stError ∨ s.status = s.params.stTimeout
  /-- RCOUNT is 0 to 5 (R29). -/
  rcount_bound : s.rcount.toNat ≤ 5
  /-- FILLER is 0 to `R_FILLER_MAX + 1`, the last only after a timeout, with no byte stored (R30, R122). -/
  filler_bound : s.filler ≤ s.params.rFillerMax ∨ (s.filler = s.params.rFillerMax + 1 ∧ s.phase = .idle ∧ s.rcount = 0)
  /-- A byte that was not received is 0xFF (R28). -/
  unreceived : ∀ k : Fin 5, s.rcount.toNat ≤ k.val → s.resp[k] = 0xFF
  /-- A stored status byte has bit 7 = 0 (R79, R80). -/
  status_byte : s.rcount ≠ 0 → s.resp[0].getLsbD 7 = false
  /-- FRAME holds its reset value or a frame the block built (R27, R77, R104). -/
  frame_built : s.frame = Vector.replicate 6 0 ∨ ∃ idx arg, s.frame = buildFrame idx arg
  /-- A failure code stands in XSTAT only with the error it ended (R26). -/
  xstat_error : s.xstat ≠ 0 → s.phase = .idle ∧ s.status = s.params.stError
  /-- Every status the transport answers, and so XSTAT, has `XSTAT_W` bits (R6, R26). -/
  xstat_fits : s.xstat < 2 ^ s.params.xstatW ∧ ∀ a ∈ s.link, a.status < 2 ^ s.params.xstatW
  /-- A running operation is a CMD.Rx (R21), and FRAME is its frame (R120, R243). -/
  running : s.phase ≠ .idle → isCommand s.req = true ∧ s.frame = buildFrame (reqIdx s.req) (reqArg s.req)
  /-- Nothing is received before the frame is sent (R120, R121). -/
  sending : s.phase = .tx → s.rcount = 0 ∧ s.filler = 0
  /-- The status byte is still to come (R120). -/
  awaiting_status : s.phase = .rxStatus → s.rcount = 0
  /-- One to four of five bytes are stored while trailing bytes come, and the response type has them (R120). -/
  in_tail : s.phase = .rxTail → 1 ≤ s.rcount.toNat ∧ s.rcount.toNat ≤ 4 ∧ tailCount (reqOp s.req) = 4
  /-- The geometry registers hang together. -/
  geometry : s.geom.Consistent

/-- `n` steps; what `Host.Core.run` does for this machine (`runSteps_eq_core` in Laws/Step.lean), with the model's own types. -/
def runSteps : Nat → State → Host.Outcome State Fault Refusal
  | 0, s => .next s
  | n + 1, s =>
    match step s with
    | .next t => runSteps n t
    | .fault r => .fault r
    | .refused r => .refused r

/-- A byte that arrives with status 0 (R52). -/
def arrives (b : Byte) : LinkAnswer := { byte := b, status := 0 }

/-- RESP after the bytes `bs` were stored from RESP[0] on; the rest stays 0xFF (R28). -/
def respOf (bs : List Byte) : Bytes 5 := Vector.ofFn fun k => bs.getD k.val 0xFF

/-- The registers after the CMD.Rx of word `w` has run from state `s` to an end: its status code, failure code, stored bytes and
count of fillers, and the `rx` Receives it made after its one Transmit (R128). All else is as before. -/
def commandEnd (s : State) (w : Word) (hs : List HostAction) (rest : List LinkAnswer)
    (code : Byte) (ts : XStatus) (stored : List Byte) (fillers rx : Nat) : State :=
  { s with
    phase := .idle
    req := w
    lastOp := reqOp w
    status := code
    xstat := ts
    frame := buildFrame (reqIdx w) (reqArg w)
    resp := respOf stored
    rcount := BitVec.ofNat 3 stored.length
    filler := fillers
    host := hs
    link := rest
    wire := List.replicate rx .receive ++ .transmit (buildFrame (reqIdx w) (reqArg w)) :: s.wire }

/-- The message as a 40-bit number, first byte most significant (R9, R100). -/
def messageBits (m : Bytes 5) : BitVec 40 :=
  (m[0].setWidth 40 <<< 32) ||| (m[1].setWidth 40 <<< 24) ||| (m[2].setWidth 40 <<< 16) ||| (m[3].setWidth 40 <<< 8)
    ||| m[4].setWidth 40

/-- The product q(x) · (x^7 + x^3 + 1) over GF(2), for a quotient of 40 bits. -/
def timesGenerator (q : BitVec 40) : BitVec 47 :=
  (q.setWidth 47 <<< 7) ^^^ (q.setWidth 47 <<< 3) ^^^ q.setWidth 47

/-- The command-frame rows with their index and argument (R83, R84, R85; the last row is any other frame, R77). -/
def frameRows (idx : BitVec 6) (arg : BitVec 32) (crc : BitVec 7) : List (Instr × BitVec 6 × BitVec 32) :=
  [(.sdCmd0GoIdle crc, 0, 0), (.sdCmd8SendIfCond crc, 8, 0x155), (.sdCmd9SendCsd crc, 9, 0), (.sdCmd55AppCmd crc, 55, 0),
    (.sdAcmd41SendOpCondV1 crc, 41, 0), (.sdAcmd41SendOpCondV2 crc, 41, 0x40000000), (.sdCmd58ReadOcr crc, 58, 0),
    (.sdCmd59CrcOn crc, 59, 1), (.sdCmd59CrcOff crc, 59, 0), (.sdAnyFrame idx arg crc, idx, arg)]

/-- The host presents the word `w` to a block that accepts it in this step (R240). -/
def accepts (s : State) (w : Word) : Prop :=
  s.phase = .idle ∧ ((∃ rest, s.host = .request w :: rest) ∨ ∃ i b rest, s.host = .requestWhileWriting w i b :: rest)

end Sys2Proof.Machine
end

