-- ==== Sys2Proof/Certificates/Slice0/Obligations.lean ====
section
/-!
DEFINITION. The statements for the provers, each a def Obligations.<Name> : Prop, in the order of the spec's files: encodings,
framing, the operations, responses, the CSD decoder, the host's interface, the sequencer, reset, and the whole machine.
The fields host, link, wire, readOut and draws of State are the model's own (notes/assumptions/1.md, 2.md, 13.md, 22.md, 25.md), as
is the count of steps (23.md): what a statement says of them is the model's choice, and no rule of the spec.
-/

open Sys2Proof Sys2Proof.Machine

/-! ## Encodings (spec/30_encoding.md) -/

/-- R87: the nine pseudo-operations, their expansions and their request words. -/
def Obligations.PseudoOperationsHaveTheirWords : Prop :=
  (expandPseudo .goIdle = .cmdR1 0 0 0 ∧ encode (expandPseudo .goIdle) = .request 0x0000000000000002#64) ∧
  (expandPseudo .sendIfCond = .cmdR7 0 8 0x155 ∧ encode (expandPseudo .sendIfCond) = .request 0x0000015500000804#64) ∧
  (expandPseudo .crcOn = .cmdR1 0 59 1 ∧ encode (expandPseudo .crcOn) = .request 0x0000000100003B02#64) ∧
  (expandPseudo .crcOff = .cmdR1 0 59 0 ∧ encode (expandPseudo .crcOff) = .request 0x0000000000003B02#64) ∧
  (expandPseudo .readOcr = .cmdR3 0 58 0 ∧ encode (expandPseudo .readOcr) = .request 0x0000000000003A03#64) ∧
  (expandPseudo .appCmd = .cmdR1 0 55 0 ∧ encode (expandPseudo .appCmd) = .request 0x0000000000003702#64) ∧
  (expandPseudo .sendOpCondV1 = .cmdR1 0 41 0 ∧ encode (expandPseudo .sendOpCondV1) = .request 0x0000000000002902#64) ∧
  (expandPseudo .sendOpCondV2 = .cmdR1 0 41 0x40000000 ∧
    encode (expandPseudo .sendOpCondV2) = .request 0x4000000000002902#64) ∧
  (expandPseudo .sendCsd = .cmdR1 0 9 0 ∧ encode (expandPseudo .sendCsd) = .request 0x0000000000000902#64)

/-- Words written out from R70, R71 and R76 decode to the instruction they stand for, a refused word and a wrong start bit among
them (words of spec/95_test_vectors.md sections 1.2 and 2.1). -/
def Obligations.WordsDecodeToTheirInstructions : Prop :=
  decode (.request 0x0000000000003F30#64) = .ok (.nop 3 63 0) ∧
  decode (.request 0x0000015500000801#64) = .ok (.frame 0 8 0x155) ∧
  decode (.request 0x4000000000002902#64) = .ok (.cmdR1 0 41 0x40000000) ∧
  decode (.request 0x0000000000003A03#64) = .ok (.cmdR3 0 58 0) ∧
  decode (.request 0x0000015500000804#64) = .ok (.cmdR7 0 8 0x155) ∧
  decode (.request 0x0000000000000025#64) = .ok (.csdDecode 2 0 0) ∧
  decode (.request 0x0000000000000006#64) = .ok (.reservedOp67 0x6#64) ∧
  decode (.request 0x000000000000000F#64) = .ok (.reservedOp8F 0xF#64) ∧
  decode (.request 0x0000000080000002#64) = .ok (.reservedOther 0x80000002#64) ∧
  decode (.frame 0x400000000095#48) = .ok (.sdCmd0GoIdle 0x4A) ∧
  decode (.frame 0x480000015575#48) = .ok (.sdCmd8SendIfCond 0x3A) ∧
  decode (.frame 0x694000000077#48) = .ok (.sdAcmd41SendOpCondV2 0x3B) ∧
  decode (.frame 0x500000020015#48) = .ok (.sdAnyFrame 16 0x200 0x0A) ∧
  decode (.frame 0x000000000095#48) = .error .badStartBits ∧
  decode (.frame 0x400000000094#48) = .error .badStopBit

/-- Decoding gives back every well-formed instruction that was encoded, with every operand (R70 to R74, R76). -/
def Obligations.EveryInstructionDecodesFromItsCode : Prop :=
  ∀ i : Instr, i.wf = true → decode (encode i) = .ok i

/-- Every request word has one meaning: it decodes to a well-formed instruction whose code is that word, so no bit of it is
lost (R70, R73, R74). -/
def Obligations.EveryRequestWordHasOneMeaning : Prop :=
  ∀ w : Word, (decodeRequest w).wf = true ∧ encode (decodeRequest w) = .request w

/-- Every frame the block builds decodes to the row of its index and argument, with its true checksum (R77, R83). -/
def Obligations.EveryBuiltFrameDecodesToItsRow : Prop :=
  ∀ (idx : BitVec 6) (arg : BitVec 32),
    decode (.frame (frameToBits (buildFrame idx arg))) = .ok (frameRow idx arg (frameCrc idx arg)) ∧
    (frameRow idx arg (frameCrc idx arg)).wf = true ∧
    encode (frameRow idx arg (frameCrc idx arg)) = .frame (frameToBits (buildFrame idx arg))

/-- R73: an operation ignores the fields it does not use. -/
def Obligations.IgnoredFieldsMakeNoDifference : Prop :=
  ∀ (v v' : BitVec 2) (i i' : BitVec 6) (a a' : BitVec 32) (s : State),
    exec (.nop v i a) s = exec (.nop v' i' a') s ∧
    exec (.frame v i a) s = exec (.frame v' i a) s ∧
    exec (.cmdR1 v i a) s = exec (.cmdR1 v' i a) s ∧
    exec (.cmdR3 v i a) s = exec (.cmdR3 v' i a) s ∧
    exec (.cmdR7 v i a) s = exec (.cmdR7 v' i a) s ∧
    exec (.csdDecode v i a) s = exec (.csdDecode v i' a') s

/-! ## CRC-7 and frames (spec/40_framing.md) -/

/-- R100: crc7 of the 40 bits of F[0..4], bit 7 of F[0] first, is the remainder of M(x) · x^7 divided by x^7 + x^3 + 1 (of degree
below 7, being 7 bits wide), and the only one; CMD0 with argument 0 has 0x4A and the byte 0x95. -/
def Obligations.CrcIsThePolynomialRemainder : Prop :=
  (∀ (m : Bytes 5) (c : BitVec 7),
    crc7 m = c ↔ ∃ q : BitVec 40, timesGenerator q ^^^ c.setWidth 47 = (messageBits m).setWidth 47 <<< 7) ∧
  crc7 #v[0x40, 0x00, 0x00, 0x00, 0x00] = 0x4A#7 ∧ (buildFrame 0 0)[5] = 0x95#8

/-- R101: crc7 is linear over GF(2); the fixed bits of a frame contribute 0x4A. -/
def Obligations.CrcIsLinear : Prop :=
  (∀ a b : Bytes 5, crc7 (Vector.zipWith (· ^^^ ·) a b) = crc7 a ^^^ crc7 b) ∧
  crc7 #v[0x40, 0x00, 0x00, 0x00, 0x00] = 0x4A#7 ∧
  ∀ (idx : BitVec 6) (arg : BitVec 32),
    frameCrc idx arg = 0x4A#7 ^^^ crc7 #v[idx.setWidth 8, arg.extractLsb' 24 8, arg.extractLsb' 16 8, arg.extractLsb' 8 8,
      arg.extractLsb' 0 8]

/-- R77, R102, R104: the bytes of a built frame, its fixed bits, and the true crc7 of its first five bytes in F[5][7:1]. -/
def Obligations.BuiltFrameBytes : Prop :=
  ∀ (idx : BitVec 6) (arg : BitVec 32),
    let f := buildFrame idx arg
    f[0] = 0x40#8 ||| idx.setWidth 8 ∧
    f[1] = arg.extractLsb' 24 8 ∧ f[2] = arg.extractLsb' 16 8 ∧ f[3] = arg.extractLsb' 8 8 ∧ f[4] = arg.extractLsb' 0 8 ∧
    f[5] = ((crc7 #v[f[0], f[1], f[2], f[3], f[4]]).setWidth 8 <<< 1) ||| 0x01#8 ∧
    f[0].extractLsb' 6 2 = 0b01#2 ∧ f[0].extractLsb' 0 6 = idx ∧ f[5].getLsbD 0 = true ∧
    f[5].extractLsb' 1 7 = crc7 #v[f[0], f[1], f[2], f[3], f[4]]

/-! ## NOP, FRAME and refused requests (spec/40_framing.md, spec/60_exceptions.md) -/

/-- R106: NOP completes from every state with STATUS = ST_OK and nothing else, whatever IDX, ARG and VER are; as a step it also
latches its word. With a reserved bit set the word is refused. The equalities are its frame. -/
def Obligations.NopOnlyFinishes : Prop :=
  (∀ (v : BitVec 2) (i : BitVec 6) (a : BitVec 32) (s : State),
    exec (.nop v i a) s = .next { s with status := s.params.stOk, phase := .idle }) ∧
  (∀ (w : Word) (s : State) (rest : List HostAction),
    reqOp w = 0 → reservedClear w = true → s.phase = .idle → s.host = .request w :: rest →
    step s = .next { s with req := w, lastOp := 0, xstat := 0, status := s.params.stOk, host := rest }) ∧
  (∀ (w : Word) (s : State) (rest : List HostAction),
    reqOp w = 0 → reservedClear w = false → s.phase = .idle → s.host = .request w :: rest →
    step s = .next { s with req := w, lastOp := 0, xstat := 0, status := s.params.stError, host := rest })

/-- R107: FRAME completes from every state: FRAME takes the built frame, STATUS takes ST_OK, nothing else changes and no
transaction is made; as a step it also latches its word. -/
def Obligations.FrameBuildsWithoutSending : Prop :=
  (∀ (v : BitVec 2) (i : BitVec 6) (a : BitVec 32) (s : State),
    exec (.frame v i a) s = .next { s with frame := buildFrame i a, status := s.params.stOk, phase := .idle }) ∧
  ∀ (w : Word) (s : State) (rest : List HostAction),
    reqOp w = 1 → reservedClear w = true → s.phase = .idle → s.host = .request w :: rest →
    step s = .next
      { s with
        req := w, lastOp := 1, xstat := 0, frame := buildFrame (reqIdx w) (reqArg w), status := s.params.stOk, host := rest }

/-- R205 at the instruction: each of the three refused rows completes from every state with STATUS = ST_ERROR and nothing else. -/
def Obligations.RefusedRowsOnlyReportAnError : Prop :=
  ∀ (w : Word) (s : State),
    exec (.reservedOp67 w) s = .next { s with status := s.params.stError, phase := .idle } ∧
    exec (.reservedOp8F w) s = .next { s with status := s.params.stError, phase := .idle } ∧
    exec (.reservedOther w) s = .next { s with status := s.params.stError, phase := .idle }

/-- R74, R205: a word with OP 0x6 to 0xF or a reserved bit set is refused, and no other word is. A refusal writes REQ, LAST_OP,
XSTAT and STATUS, changes no other register and makes no transaction. -/
def Obligations.RefusedRequestWritesFourRegisters : Prop :=
  ∀ (w : Word) (s : State) (rest : List HostAction),
    s.phase = .idle → s.host = .request w :: rest →
    ((6 ≤ (reqOp w).toNat ∨ reqRsv0 w ≠ 0 ∨ reqRsv1 w ≠ 0) →
      step s = .next
        { s with req := w, lastOp := reqOp w, xstat := 0, status := s.params.stError, host := rest }) ∧
    (¬ (6 ≤ (reqOp w).toNat ∨ reqRsv0 w ≠ 0 ∨ reqRsv1 w ≠ 0) →
      (∀ x, decodeRequest w ≠ .reservedOp67 x) ∧ (∀ x, decodeRequest w ≠ .reservedOp8F x) ∧
      (∀ x, decodeRequest w ≠ .reservedOther x))

/-! ## CMD.R1, CMD.R3, CMD.R7 and their frames (spec/41_command_response.md) -/

/-- R120 up to the Transmit: each CMD.Rx completes its accepting step from every state: the response registers preset, FRAME
built, PHASE = TX, nothing else. -/
def Obligations.CommandsPresetAndBuildTheirFrame : Prop :=
  ∀ (v : BitVec 2) (i : BitVec 6) (a : BitVec 32) (s : State) (c : Instr),
    (c = .cmdR1 v i a ∨ c = .cmdR3 v i a ∨ c = .cmdR7 v i a) →
    exec c s = .next
      { s with
        resp := Vector.replicate 5 0xFF, rcount := 0, filler := 0, frame := buildFrame i a, phase := .tx }

/-- R127: at the transport CMD.R7 behaves exactly like CMD.R3. Accepted from one state with the same operands, every later state
of the two runs differs in REQ and LAST_OP only. That the runs are compared step by step is the model's (notes/assumptions/23.md). -/
def Obligations.CmdR7BehavesLikeCmdR3 : Prop :=
  ∀ (s : State) (w w' : Word) (hs : List HostAction) (k : Nat),
    s.phase = .idle → reservedClear w = true → reservedClear w' = true → reqOp w = 3 → reqOp w' = 4 →
    reqIdx w = reqIdx w' → reqArg w = reqArg w' → hs.all (fun a => match a with | .idle => true | _ => false) = true →
    ∃ t, runSteps (k + 1) { s with host := .request w :: hs } = .next t ∧
      runSteps (k + 1) { s with host := .request w' :: hs } = .next { t with req := w', lastOp := 4 }

/-- Each of the ten frame rows (sdCmd0GoIdle, sdCmd8SendIfCond, sdCmd9SendCsd, sdCmd55AppCmd, sdAcmd41SendOpCondV1,
sdAcmd41SendOpCondV2, sdCmd58ReadOcr, sdCmd59CrcOn, sdCmd59CrcOff, sdAnyFrame) completes its Transmit whenever the transport
answers with status 0: the frame's six bytes have gone out as one transaction and the block waits for the status byte; nothing
else changes. That a frame row means its Transmit is the model's reading (notes/assumptions/5.md) of R53, R76 and R120. -/
def Obligations.FrameRowsTransmitTheirBytes : Prop :=
  ∀ (i : BitVec 6) (a : BitVec 32) (crc : BitVec 7) (row : Instr × BitVec 6 × BitVec 32), row ∈ frameRows i a crc →
  ∀ (s : State) (b : Byte) (rest : List LinkAnswer), s.link = { byte := b, status := 0 } :: rest →
    exec row.1 s = .next
      { s with
        link := rest
        wire := .transmit #v[0x40#8 ||| row.2.1.setWidth 8, row.2.2.extractLsb' 24 8, row.2.2.extractLsb' 16 8,
          row.2.2.extractLsb' 8 8, row.2.2.extractLsb' 0 8, (crc.setWidth 8 <<< 1) ||| 0x01#8] :: s.wire
        phase := .rxStatus }

/-- R121: a nonzero status from a Transmit or a Receive ends the operation at once with STATUS = ST_ERROR and XSTAT that status.
Nothing more is taken from the link, RESP, RCOUNT and FILLER keep what was stored, and after a failed Transmit nothing was. -/
def Obligations.FailedTransactionEndsTheOperation : Prop :=
  ∀ (s : State) (a : LinkAnswer) (rest : List LinkAnswer),
    s.phase ≠ .idle → hostWaits s.host = true → s.link = a :: rest → a.status ≠ 0 →
    (step s = .next
      { s with
        status := s.params.stError, xstat := a.status, phase := .idle, link := rest, wire := outstanding s ++ s.wire }) ∧
    (s.Inv → s.phase = .tx → s.rcount = 0 ∧ s.filler = 0 ∧ s.resp = Vector.replicate 5 0xFF)

/-- R79, R122: a byte received with bit 7 = 1 before the status byte is counted in FILLER and not stored; up to `R_FILLER_MAX` of
them are tolerated and the next one ends the operation with ST_TIMEOUT. -/
def Obligations.FillerByteIsCountedUpToTheBound : Prop :=
  ∀ (s : State) (b : Byte) (rest : List LinkAnswer),
    s.phase = .rxStatus → hostWaits s.host = true → s.link = arrives b :: rest → b.getLsbD 7 = true →
    (s.filler < s.params.rFillerMax →
      step s = .next { s with filler := s.filler + 1, link := rest, wire := .receive :: s.wire }) ∧
    (s.params.rFillerMax ≤ s.filler →
      step s = .next
        { s with
          filler := s.filler + 1, status := s.params.stTimeout, phase := .idle, link := rest, wire := .receive :: s.wire })

/-- R79, R120, R124: the first byte received with bit 7 = 0, whatever its other bits, is stored as the status byte; CMD.R1 then
finishes with ST_OK and CMD.R3 and CMD.R7 go on to their trailing bytes. -/
def Obligations.StatusByteIsStored : Prop :=
  ∀ (s : State) (b : Byte) (rest : List LinkAnswer),
    s.phase = .rxStatus → hostWaits s.host = true → s.link = arrives b :: rest → b.getLsbD 7 = false →
    (reqOp s.req = 2 →
      step s = .next
        { s with
          resp := s.resp.set 0 b, rcount := 1, status := s.params.stOk, phase := .idle, link := rest
          wire := .receive :: s.wire }) ∧
    ((reqOp s.req = 3 ∨ reqOp s.req = 4) →
      step s = .next
        { s with resp := s.resp.set 0 b, rcount := 1, phase := .rxTail, link := rest, wire := .receive :: s.wire })

/-- R123: trailing byte k is stored in RESP[k] whatever its value and whatever the status byte says; the fourth finishes the
operation with ST_OK. -/
def Obligations.TrailingBytesAreStoredUnconditionally : Prop :=
  ∀ (s : State) (b : Byte) (rest : List LinkAnswer) (k : Fin 5),
    s.phase = .rxTail → hostWaits s.host = true → s.link = arrives b :: rest → (reqOp s.req = 3 ∨ reqOp s.req = 4) →
    1 ≤ k.val → s.rcount = BitVec.ofNat 3 k.val →
    step s = .next
      { s with
        resp := s.resp.set k b
        rcount := BitVec.ofNat 3 (k.val + 1)
        status := if k.val = 4 then s.params.stOk else s.status
        phase := if k.val = 4 then .idle else .rxTail
        link := rest
        wire := .receive :: s.wire }

/-- R128, row "complete": with f ≤ `R_FILLER_MAX` filler bytes before the status byte and no failure, a CMD.Rx ends with ST_OK, all
1 + n bytes stored, whatever the status byte and the trailing bytes are (R124), after 1 Transmit and f + 1 + n Receives; nothing else
of the state changes. How many steps that takes, and the trace `wire`, are the model's (notes/assumptions/22.md, 23.md). -/
def Obligations.CommandCompletes : Prop :=
  ∀ (s : State) (w : Word) (hs : List HostAction) (b : Byte) (fs : List Byte) (st : Byte) (tail : List Byte)
    (rest : List LinkAnswer),
    s.phase = .idle → isCommand w = true → s.host = .request w :: hs → hostWaits hs = true →
    (∀ x ∈ fs, x.getLsbD 7 = true) → fs.length ≤ s.params.rFillerMax → st.getLsbD 7 = false →
    tail.length = tailCount (reqOp w) →
    s.link = arrives b :: (fs.map arrives ++ arrives st :: (tail.map arrives ++ rest)) →
    runSteps (fs.length + tail.length + 3) s =
      .next (commandEnd s w hs rest s.params.stOk 0 (st :: tail) fs.length (fs.length + 1 + tail.length))

/-- R122, and R128 row "timeout": `R_FILLER_MAX + 1` filler bytes end a CMD.Rx with ST_TIMEOUT on that Receive, no byte stored. How
many steps that takes, and the trace `wire`, are the model's (notes/assumptions/22.md, 23.md). -/
def Obligations.CommandTimesOut : Prop :=
  ∀ (s : State) (w : Word) (hs : List HostAction) (b : Byte) (fs : List Byte) (rest : List LinkAnswer),
    s.phase = .idle → isCommand w = true → s.host = .request w :: hs → hostWaits hs = true →
    (∀ x ∈ fs, x.getLsbD 7 = true) → fs.length = s.params.rFillerMax + 1 →
    s.link = arrives b :: (fs.map arrives ++ rest) →
    runSteps (fs.length + 2) s =
      .next (commandEnd s w hs rest s.params.stTimeout 0 [] (s.params.rFillerMax + 1) (s.params.rFillerMax + 1))

/-- R128, row "Transmit fails": no Receive is made. The two steps, and the trace `wire`, are the model's (notes/assumptions/22.md,
23.md). -/
def Obligations.CommandFailsInTransmit : Prop :=
  ∀ (s : State) (w : Word) (hs : List HostAction) (a : LinkAnswer) (rest : List LinkAnswer),
    s.phase = .idle → isCommand w = true → s.host = .request w :: hs → hostWaits hs = true →
    a.status ≠ 0 → s.link = a :: rest →
    runSteps 2 s = .next (commandEnd s w hs rest s.params.stError a.status [] 0 0)

/-- R128, row "Receive fails before the status byte", and R204: the failing Receive reports ST_ERROR even in the place of filler
number `R_FILLER_MAX + 1`, whatever byte came with it. How many steps that takes, and the trace `wire`, are the model's
(notes/assumptions/22.md, 23.md). -/
def Obligations.CommandFailsBeforeTheStatusByte : Prop :=
  ∀ (s : State) (w : Word) (hs : List HostAction) (b : Byte) (fs : List Byte) (a : LinkAnswer) (rest : List LinkAnswer),
    s.phase = .idle → isCommand w = true → s.host = .request w :: hs → hostWaits hs = true →
    (∀ x ∈ fs, x.getLsbD 7 = true) → fs.length ≤ s.params.rFillerMax → a.status ≠ 0 →
    s.link = arrives b :: (fs.map arrives ++ a :: rest) →
    runSteps (fs.length + 3) s =
      .next (commandEnd s w hs rest s.params.stError a.status [] fs.length (fs.length + 1))

/-- R128, row "Receive fails at trailing byte k": the bytes already stored stay, and RCOUNT = k counts them. How many
steps that takes, and the trace `wire`, are the model's (notes/assumptions/22.md, 23.md). -/
def Obligations.CommandFailsInTheTail : Prop :=
  ∀ (s : State) (w : Word) (hs : List HostAction) (b : Byte) (fs : List Byte) (st : Byte) (tail : List Byte)
    (a : LinkAnswer) (rest : List LinkAnswer),
    s.phase = .idle → isCommand w = true → s.host = .request w :: hs → hostWaits hs = true →
    (∀ x ∈ fs, x.getLsbD 7 = true) → fs.length ≤ s.params.rFillerMax → st.getLsbD 7 = false →
    tail.length < tailCount (reqOp w) → a.status ≠ 0 →
    s.link = arrives b :: (fs.map arrives ++ arrives st :: (tail.map arrives ++ a :: rest)) →
    runSteps (fs.length + tail.length + 4) s =
      .next (commandEnd s w hs rest s.params.stError a.status (st :: tail) fs.length (fs.length + 2 + tail.length))

/-- R129: a CMD.Rx makes at most `R_FILLER_MAX + 6` transactions, and it completes whenever the transport answers every one of
them, whatever the answers. That n transactions are n steps, after one for the acceptance, is the model's (notes/assumptions/23.md),
and so is the trace they are counted by (22.md). -/
def Obligations.CommandIsBounded : Prop :=
  ∀ (s : State) (w : Word) (hs : List HostAction),
    s.phase = .idle → isCommand w = true → s.host = .request w :: hs → hostWaits hs = true →
    s.params.rFillerMax + 6 ≤ s.link.length →
    ∃ (n : Nat) (ts : List Transaction) (t : State),
      runSteps (n + 1) s = .next t ∧ t.phase = .idle ∧ t.host = hs ∧ n ≤ s.params.rFillerMax + 6 ∧
      ts.length = n ∧ t.wire = ts ++ s.wire ∧ t.link = s.link.drop n

/-- R63: while a transaction has not returned, the operation does not complete: BUSY stays 1 and nothing changes. An empty list of
answers is how the model says that it has not returned (notes/assumptions/1.md). -/
def Obligations.UnansweredTransactionKeepsTheBlockBusy : Prop :=
  ∀ (s : State) (n : Nat),
    s.phase ≠ .idle → hostWaits s.host = true → s.link = [] → runSteps n s = .next s

/-! ## Response fields (spec/41_command_response.md section 3) -/

/-- R80, R130: the R1 flags are bits 0 to 6 of RESP[0], and R1_READY and R1_IDLE_ONLY compare it with 0x00 and 0x01; with
RESP[0] = 0xFF (a timeout, a failed Transmit) every flag reads 1 and both comparisons read 0. -/
def Obligations.R1FlagsAreStatusBits : Prop :=
  ∀ r : Bytes 5,
    r1Idle r = r[0].getLsbD 0 ∧ r1EraseReset r = r[0].getLsbD 1 ∧ r1IllegalCmd r = r[0].getLsbD 2 ∧
    r1CrcErr r = r[0].getLsbD 3 ∧ r1EraseSeqErr r = r[0].getLsbD 4 ∧ r1AddrErr r = r[0].getLsbD 5 ∧
    r1ParamErr r = r[0].getLsbD 6 ∧
    (r1Ready r = true ↔ r[0] = 0x00) ∧ (r1IdleOnly r = true ↔ r[0] = 0x01) ∧
    (r[0] = 0xFF → r1Idle r = true ∧ r1EraseReset r = true ∧ r1IllegalCmd r = true ∧ r1CrcErr r = true ∧
      r1EraseSeqErr r = true ∧ r1AddrErr r = true ∧ r1ParamErr r = true ∧ r1Ready r = false ∧ r1IdleOnly r = false)

/-- R132, R133 with R56, R81: in terms of the 32-bit OCR, OCR_BUSY_RAW is bit 31, OCR_CCS bit 30, and OCR_VOLT_OK asks for bits
20:16 and 15, all six. -/
def Obligations.OcrFieldsAreOcrBits : Prop :=
  ∀ r : Bytes 5,
    ocrBusyRaw r = (respPayload r).getLsbD 31 ∧ ocrCcs r = (respPayload r).getLsbD 30 ∧
    (ocrVoltOk r = true ↔ respPayload r &&& 0x001F8000#32 = 0x001F8000#32) ∧
    (ocrVoltOk r = true ↔ r[2] &&& 0x1F = 0x1F ∧ r[3].getLsbD 7 = true)

/-- R134 with R82: R7_ECHO is payload bits 7:0, R7_VHS bits 11:8, and R7_OK compares these twelve bits with 0x155 whatever
argument was sent. -/
def Obligations.R7FieldsArePayloadBits : Prop :=
  ∀ r : Bytes 5,
    r7Echo r = (respPayload r).extractLsb' 0 8 ∧ r7Vhs r = (respPayload r).extractLsb' 8 4 ∧
    (r7Ok r = true ↔ r7Echo r = 0x55 ∧ r7Vhs r = 1) ∧
    (r7Ok r = true ↔ respPayload r &&& 0x00000FFF#32 = 0x00000155#32)

/-- R131, R244: after a CMD.Rx that received its whole response the R1 flags may be used, the OCR fields after a CMD.R3 and the R7
fields after a CMD.R7 only; after any other end none of them may. -/
def Obligations.FieldsAreUsableAfterTheirOwnResponse : Prop :=
  ∀ (s : State) (w : Word) (hs : List HostAction) (rest : List LinkAnswer) (code : Byte) (ts : XStatus) (st : Byte)
    (tail stored : List Byte) (f rx : Nat), isCommand w = true →
    (tail.length = tailCount (reqOp w) →
      r1Usable (commandEnd s w hs rest s.params.stOk 0 (st :: tail) f rx) = true ∧
      (ocrUsable (commandEnd s w hs rest s.params.stOk 0 (st :: tail) f rx) = true ↔ reqOp w = 3) ∧
      (r7Usable (commandEnd s w hs rest s.params.stOk 0 (st :: tail) f rx) = true ↔ reqOp w = 4)) ∧
    (code ≠ s.params.stOk →
      r1Usable (commandEnd s w hs rest code ts stored f rx) = false ∧
      ocrUsable (commandEnd s w hs rest code ts stored f rx) = false ∧
      r7Usable (commandEnd s w hs rest code ts stored f rx) = false)

/-! ## The CSD decoder (spec/42_csd_decoder.md) -/

/-- R160: CSD bit n is `CSDBUF[15 - (n >> 3)][n & 7]`; a field's bits are the CSD bits from its low end up; and the whole CSD,
read so, is the sixteen bytes as one big-endian number (R57). -/
def Obligations.CsdBitsAreBufferBits : Prop :=
  ∀ b : Bytes 16,
    (∀ n : Nat, ∀ h : n < 128, csdBit b n = (b[15 - n / 8]'(by omega)).getLsbD (n % 8)) ∧
    (∀ lo len k : Nat, lo + len ≤ 128 → k < len → (csdField b lo len).getLsbD k = csdBit b (lo + k)) ∧
    (csdField b 0 128).toNat = b.toList.foldl (fun acc x => acc * 256 + x.toNat) 0

/-- R164 to R167: for every TRAN_SPEED byte, SPEED_KBPS is the product of the two tables for unit codes 0 to 3 and 0 for the
others, and SPEED_VALID asks for a unit code of at most 3 and a time value other than 0. -/
def Obligations.SpeedFollowsTheTables : Prop :=
  ∀ t : Byte,
    let unit := t.toNat % 8
    let tv := t.toNat / 8 % 16
    ((speedKbps t).toNat =
      if unit ≤ 3 then 10 ^ (unit + 1) * [0, 10, 12, 13, 15, 20, 25, 30, 35, 40, 45, 50, 55, 60, 70, 80].getD tv 0 else 0) ∧
    (speedValid t = true ↔ unit ≤ 3 ∧ tv ≠ 0)

/-- R168 to R173, R178: CSD.DECODE 1 completes from every state; each geometry register is given from the bytes of CSDBUF by
the positions of R162. Every other register keeps its value. -/
def Obligations.DecodeV1FillsTheGeometry : Prop :=
  ∀ (i : BitVec 6) (a : BitVec 32) (s : State),
    let b := s.csdbuf
    ∃ g : Geometry,
      exec (.csdDecode 1 i a) s = .next { s with geom := g, status := s.params.stOk, phase := .idle } ∧
      g.valid = true ∧ g.ver = 1 ∧ g.tranSpeedRaw = b[3] ∧ g.speedKbps = speedKbps b[3] ∧ g.speedValid = speedValid b[3] ∧
      g.ccc = (b[4].setWidth 12 <<< 4) ||| (b[5] >>> 4).setWidth 12 ∧
      g.blLen = b[5].extractLsb' 0 4 ∧ g.blockSize.toNat = 2 ^ g.blLen.toNat ∧ g.partialWr = b[13].getLsbD 5 ∧
      g.cSize = (b[6].extractLsb' 0 2 ++ b[7] ++ b[8].extractLsb' 6 2).setWidth 22 ∧
      g.cSizeMult = b[9].extractLsb' 0 2 ++ b[10].extractLsb' 7 1 ∧
      g.capacity.toNat = (g.cSize.toNat + 1) * 2 ^ (g.cSizeMult.toNat + 2 + g.blLen.toNat)

/-- R168 to R170, R174, R175, R178: CSD.DECODE 2 completes from every state, as CSD.DECODE 1 but for the size fields and the
capacity. -/
def Obligations.DecodeV2FillsTheGeometry : Prop :=
  ∀ (i : BitVec 6) (a : BitVec 32) (s : State),
    let b := s.csdbuf
    ∃ g : Geometry,
      exec (.csdDecode 2 i a) s = .next { s with geom := g, status := s.params.stOk, phase := .idle } ∧
      g.valid = true ∧ g.ver = 2 ∧ g.tranSpeedRaw = b[3] ∧ g.speedKbps = speedKbps b[3] ∧ g.speedValid = speedValid b[3] ∧
      g.ccc = (b[4].setWidth 12 <<< 4) ||| (b[5] >>> 4).setWidth 12 ∧
      g.blLen = b[5].extractLsb' 0 4 ∧ g.blockSize.toNat = 2 ^ g.blLen.toNat ∧ g.partialWr = b[13].getLsbD 5 ∧
      g.cSize = b[7].extractLsb' 0 6 ++ b[8] ++ b[9] ∧ g.cSizeMult = 0 ∧
      g.capacity.toNat = (g.cSize.toNat + 1) * 512

/-- R178, R179: CSD.DECODE with VER 0 or 3 completes from every state with ST_ERROR and every geometry register 0, GEOM_VER and
GEOM_VALID among them; nothing else changes. -/
def Obligations.DecodeOfNoVersionClearsTheGeometry : Prop :=
  ∀ (v : BitVec 2) (i : BitVec 6) (a : BitVec 32) (s : State), (v = 0 ∨ v = 3) →
    exec (.csdDecode v i a) s = .next
      { s with
        geom := { valid := false, ver := 0, capacity := 0, blLen := 0, blockSize := 0, ccc := 0, tranSpeedRaw := 0,
                  speedKbps := 0, speedValid := false, partialWr := false, cSize := 0, cSizeMult := 0 }
        status := s.params.stError
        phase := .idle }

/-- R173, R175, R177: no width loses a bit: BLOCK_SIZE and both capacities are the exact products, at most 2^36 and 2^31. -/
def Obligations.CapacityNeverWraps : Prop :=
  ∀ b : Bytes 16,
    (decodeV1 b).blockSize.toNat = 2 ^ (decodeV1 b).blLen.toNat ∧
    (decodeV1 b).cSize.toNat ≤ 4095 ∧
    (decodeV1 b).capacity.toNat =
      ((decodeV1 b).cSize.toNat + 1) * 2 ^ ((decodeV1 b).cSizeMult.toNat + 2) * (decodeV1 b).blockSize.toNat ∧
    (decodeV1 b).capacity.toNat ≤ 2 ^ 36 ∧
    (decodeV2 b).capacity.toNat = ((decodeV2 b).cSize.toNat + 1) * 512 ∧
    (decodeV2 b).capacity.toNat ≤ 2 ^ 31

/-- R161, R176 with R162: a decode depends on the listed fields alone. Two images that agree on TRAN_SPEED, CCC, READ_BL_LEN,
WRITE_BL_PARTIAL and the version's size fields give the same geometry, whatever CSD_STRUCTURE, the CRC, the end bit and the
reserved bits are. -/
def Obligations.DecodeReadsOnlyTheListedFields : Prop :=
  ∀ b c : Bytes 16,
    (∀ n : Nat, (80 ≤ n ∧ n ≤ 103) ∨ n = 21 → csdBit b n = csdBit c n) →
    ((∀ n : Nat, (62 ≤ n ∧ n ≤ 73) ∨ (47 ≤ n ∧ n ≤ 49) → csdBit b n = csdBit c n) →
      decodeV1 b = decodeV1 c) ∧
    ((∀ n : Nat, 48 ≤ n ∧ n ≤ 69 → csdBit b n = csdBit c n) → decodeV2 b = decodeV2 c)

/-! ## The host's interface (spec/10_state.md R37, spec/70_reset_and_hazards.md) -/

/-- R23, R37, R242: the host writes any CSDBUF byte in any phase, and the write takes effect in its step. That the step does nothing
else, so that while BUSY = 1 no transaction returns in it, is the model's choice (DESIGN CHOICE, notes/assumptions/2.md) and no rule
of the spec. -/
def Obligations.CsdbufWriteTakesEffectInItsStep : Prop :=
  ∀ (s : State) (i : Fin 16) (b : Byte) (rest : List HostAction), s.host = .writeCsd i b :: rest →
    ∃ t, step s = .next t ∧ t = { s with csdbuf := s.csdbuf.set i b, host := rest } ∧ t.csdbuf[i] = b ∧
      ∀ j : Fin 16, j ≠ i → t.csdbuf[j] = s.csdbuf[j]

/-- R242, I19: a CSD.DECODE accepted in the step of a CSDBUF write decodes either the old image or the new one; which of the two
is a free value (notes/assumptions/10.md), and the write takes effect either way. -/
def Obligations.SameStepWriteIsSeenOrNot : Prop :=
  ∀ (s : State) (w : Word) (i : Fin 16) (b : Byte) (rest : List HostAction),
    s.phase = .idle → s.host = .requestWhileWriting w i b :: rest → reservedClear w = true → reqOp w = 5 →
    reqVer w = 1 ∨ reqVer w = 2 →
    ∃ t, step s = .next t ∧ t.csdbuf = s.csdbuf.set i b ∧ t.status = s.params.stOk ∧
      ((reqVer w = 1 → t.geom = decodeV1 s.csdbuf ∨ t.geom = decodeV1 (s.csdbuf.set i b)) ∧
       (reqVer w = 2 → t.geom = decodeV2 s.csdbuf ∨ t.geom = decodeV2 (s.csdbuf.set i b)))

/-- R240, R242: a CSDBUF write in the step of a request. While BUSY = 1 the write takes effect and the request stays with the host.
While BUSY = 0 the request runs as if it had come alone and the write takes effect beside it, for every request but a CSD.DECODE
of version 1 or 2 (SameStepWriteIsSeenOrNot). That the block makes no transaction in the step of a write while BUSY = 1 is the
model's choice (DESIGN CHOICE, notes/assumptions/2.md), which R240 and R242 do not state. The counter `draws` of the model's free
values also moves. -/
def Obligations.WriteBesideARequestOnlyWrites : Prop :=
  ∀ (s : State) (w : Word) (i : Fin 16) (b : Byte) (rest : List HostAction), s.host = .requestWhileWriting w i b :: rest →
    (s.phase ≠ .idle → step s = .next { s with csdbuf := s.csdbuf.set i b, host := .request w :: rest }) ∧
    (s.phase = .idle → ¬ (reservedClear w = true ∧ reqOp w = 5 ∧ (reqVer w = 1 ∨ reqVer w = 2)) →
      ∃ u, step { s with host := .request w :: rest } = .next u ∧
        step s = .next { u with csdbuf := s.csdbuf.set i b, draws := s.draws + 1 })

/-- R37, R32, R241: while BUSY = 0 a read returns the register's value (regValue, which ReadValuesAreTheRegisters ties to the
registers), and while BUSY = 1 a read of a register no running operation touches does (which those are is the model's choice,
DESIGN CHOICE, notes/assumptions/25.md). A read itself changes no register; that the step of a read changes none even while a
transaction is outstanding is the model's choice (DESIGN CHOICE, notes/assumptions/2.md) and no rule of the spec. -/
def Obligations.ReadsReturnAndDisturbNothing : Prop :=
  ∀ (s : State) (r : HostReg) (rest : List HostAction), s.host = .read r :: rest →
    ∃ (v : Word) (n : Nat), step s = .next { s with host := rest, readOut := v, draws := n } ∧
      (s.phase = .idle ∨ settledWhileBusy r = true → v = regValue s r ∧ n = s.draws)

/-- A step in which the host does nothing is the block's own: it moves as when the host has nothing to do. The schedule of host and
block is the model's (notes/assumptions/2.md). -/
def Obligations.IdleHostLeavesTheStepToTheBlock : Prop :=
  ∀ (s : State) (rest : List HostAction), s.host = .idle :: rest →
    ∃ t, step { s with host := [] } = .next t ∧ step s = .next { t with host := rest }

/-- R240: a request presented while BUSY = 1 is not accepted: the block goes on as if the host did nothing, and the request stays
with the host. -/
def Obligations.RequestWaitsWhileBusy : Prop :=
  ∀ (s : State) (w : Word) (rest : List HostAction), s.phase ≠ .idle → s.host = .request w :: rest →
    ∃ t, step s = .next t ∧ step { s with host := [] } = .next { t with host := [] } ∧ t.host = s.host ∧
      t.req = s.req ∧ t.lastOp = s.lastOp ∧ t.frame = s.frame ∧ t.csdbuf = s.csdbuf ∧ t.geom = s.geom

/-! ## The step (spec/10_state.md R21, spec/70_reset_and_hazards.md R240) -/

/-- Accepting a request: the word is latched (REQ, LAST_OP, XSTAT) and the step is exec of the instruction it decodes to. -/
def Obligations.StepRunsTheAcceptedRequest : Prop :=
  ∀ (s : State) (w : Word) (rest : List HostAction) (i : Instr),
    s.phase = .idle → s.host = .request w :: rest → decode (.request w) = .ok i →
    i.wf = true ∧ step s = exec i { s with req := w, lastOp := reqOp w, xstat := 0, host := rest }

/-- Phase TX: the frame in FRAME is fetched, and the step is exec of the row it decodes to (that a frame is an instruction of its
own is the model's reading, notes/assumptions/5.md). -/
def Obligations.StepRunsTheFrameInTransmit : Prop :=
  ∀ (s : State) (i : Instr),
    s.phase = .tx → decode (.frame (frameToBits s.frame)) = .ok i →
    (hostWaits s.host = true → step s = exec i s) ∧
    (∀ rest, s.host = .idle :: rest → step s = exec i { s with host := rest })

/-- R200, R207: no step stops: whatever the state, the step answers a next state (read so in notes/assumptions/17.md). That no step
changes the parameters of R6, which are a field of State, is the model's choice (DESIGN CHOICE, notes/assumptions/3.md). -/
def Obligations.EveryStepAnswersANextState : Prop :=
  ∀ s : State, ∃ t, step s = .next t ∧ t.params = s.params

/-! ## Reset (spec/70_reset_and_hazards.md R230 to R232, spec/10_state.md R38) -/

/-- R38: every piece of state the spec gives the block, at its reset value. -/
def Obligations.ResetValues : Prop :=
  State.reset.phase = .idle ∧ State.reset.busy = false ∧ State.reset.req = 0x0000000000000000 ∧
  (∀ i : Fin 16, State.reset.csdbuf[i] = 0x00) ∧ State.reset.lastOp = 0x0 ∧ State.reset.status = 0x00 ∧
  State.reset.xstat = 0x00 ∧ (∀ i : Fin 6, State.reset.frame[i] = 0x00) ∧ (∀ i : Fin 5, State.reset.resp[i] = 0xFF) ∧
  State.reset.rcount = 0 ∧ State.reset.filler = 0 ∧
  State.reset.geom.valid = false ∧ State.reset.geom.ver = 0 ∧ State.reset.geom.capacity = 0 ∧ State.reset.geom.blLen = 0 ∧
  State.reset.geom.blockSize = 0 ∧ State.reset.geom.ccc = 0 ∧ State.reset.geom.tranSpeedRaw = 0 ∧
  State.reset.geom.speedKbps = 0 ∧ State.reset.geom.speedValid = false ∧ State.reset.geom.partialWr = false ∧
  State.reset.geom.cSize = 0 ∧ State.reset.geom.cSizeMult = 0

/-- R230, R231: reset may arrive in any phase. Every register takes its value of R38, the operation is abandoned, the answer of
the outstanding transaction is discarded, and no transaction is started: the wire gains only the outstanding one. What the model's
own fields hold after it is notes/assumptions/12.md. -/
def Obligations.ResetRestoresEveryRegister : Prop :=
  ∀ (s : State) (rest : List HostAction), s.host = .reset :: rest →
    step s = .next
      { params := s.params, phase := .idle, req := 0, csdbuf := Vector.replicate 16 0x00, lastOp := 0, status := 0x00
        xstat := 0, frame := Vector.replicate 6 0x00, resp := Vector.replicate 5 0xFF, rcount := 0, filler := 0
        geom := .zero, host := rest, link := if s.phase = .idle then s.link else s.link.tail
        wire := outstanding s ++ s.wire, readOut := s.readOut, draws := s.draws }

/-! ## The whole machine -/

/-- R23: the block never writes CSDBUF. It changes only in a step in which the host writes it or raises reset. -/
def Obligations.OnlyTheHostChangesCsdbuf : Prop :=
  ∀ s t : State, step s = .next t → t.csdbuf ≠ s.csdbuf →
    (∃ i b rest, s.host = .writeCsd i b :: rest) ∨ (∃ w i b rest, s.host = .requestWhileWriting w i b :: rest) ∨
    (∃ rest, s.host = .reset :: rest)

/-- R31: only an accepted CSD.DECODE, or reset, changes a geometry register. -/
def Obligations.OnlyDecodeChangesTheGeometry : Prop :=
  ∀ s t : State, step s = .next t → t.geom ≠ s.geom →
    (∃ w, accepts s w ∧ reservedClear w = true ∧ reqOp w = 5) ∨ (∃ rest, s.host = .reset :: rest)

/-- R27: FRAME changes only when a FRAME or a CMD.Rx is accepted, or by reset; what it then holds is the built frame. -/
def Obligations.FrameChangesOnlyWhenBuilt : Prop :=
  ∀ s t : State, step s = .next t → t.frame ≠ s.frame →
    (∃ w, accepts s w ∧ reservedClear w = true ∧ 1 ≤ (reqOp w).toNat ∧ (reqOp w).toNat ≤ 4 ∧
      t.frame = buildFrame (reqIdx w) (reqArg w)) ∨
    (∃ rest, s.host = .reset :: rest)

/-- R22, R24, R240: REQ and LAST_OP change only when a request is accepted, to that word and its OP, or by reset. -/
def Obligations.ReqChangesOnlyOnAcceptance : Prop :=
  ∀ s t : State, step s = .next t → (t.req ≠ s.req ∨ t.lastOp ≠ s.lastOp) →
    (∃ w, accepts s w ∧ t.req = w ∧ t.lastOp = reqOp w) ∨ (∃ rest, s.host = .reset :: rest)

/-- R25, R203: STATUS changes only in a step that ends an operation (BUSY = 0 after it), to one of the codes ST_OK, ST_ERROR and
ST_TIMEOUT, or by reset to 0x00. -/
def Obligations.StatusChangesOnlyWhenAnOperationEnds : Prop :=
  ∀ s t : State, step s = .next t → t.status ≠ s.status →
    t.phase = .idle ∧
    (((s.phase ≠ .idle ∨ ∃ w, accepts s w) ∧
      (t.status = s.params.stOk ∨ t.status = s.params.stError ∨ t.status = s.params.stTimeout)) ∨
     ((∃ rest, s.host = .reset :: rest) ∧ t.status = 0x00))

/-- R53, R60: a step makes at most one transaction, the outstanding one, and takes at most one answer; with none outstanding it
makes and takes none. R53 and R60 say one transaction at a time; that a step makes at most one is the model's choice (DESIGN CHOICE,
notes/assumptions/23.md), read off `wire` and `link` (22.md, 1.md), and in a step of reset as 12.md says. -/
def Obligations.OneTransactionAtATime : Prop :=
  ∀ s t : State, step s = .next t →
    (t.wire = s.wire ∧ t.link = s.link) ∨ (s.phase ≠ .idle ∧ t.wire = outstanding s ++ s.wire ∧ t.link = s.link.tail)

/-- R34: no operation reads a result register. Two idle blocks that agree on the parameters, the transport's answers and the
request, and on CSDBUF if it is a CSD.DECODE, whatever their result registers hold, stay in the same phase and make the same
transactions; a CMD.Rx leaves the same frame, response and counts in both, a FRAME the same frame, a CSD.DECODE the same
geometry, and the same code when it ends. The host of the two runs only presents the request. -/
def Obligations.NoResultRegisterIsAnInput : Prop :=
  ∀ (s₁ s₂ : State) (w : Word) (k : Nat),
    s₁.phase = .idle → s₂.phase = .idle → s₁.host = [.request w] → s₂.host = [.request w] →
    s₁.params = s₂.params → s₁.link = s₂.link → s₁.wire = s₂.wire → (reqOp w = 5 → s₁.csdbuf = s₂.csdbuf) →
    ∃ t₁ t₂, runSteps (k + 1) s₁ = .next t₁ ∧ runSteps (k + 1) s₂ = .next t₂ ∧
      t₁.phase = t₂.phase ∧ t₁.req = t₂.req ∧ t₁.lastOp = t₂.lastOp ∧ t₁.xstat = t₂.xstat ∧
      t₁.link = t₂.link ∧ t₁.wire = t₂.wire ∧
      (t₁.phase = .idle → t₁.status = t₂.status) ∧
      (isCommand w = true →
        t₁.frame = t₂.frame ∧ t₁.resp = t₂.resp ∧ t₁.rcount = t₂.rcount ∧ t₁.filler = t₂.filler) ∧
      (reservedClear w = true ∧ reqOp w = 1 → t₁.frame = t₂.frame) ∧
      (reservedClear w = true ∧ reqOp w = 5 → t₁.geom = t₂.geom)

/-- The invariant of the block's registers holds after reset. -/
def Obligations.InvariantHoldsAtReset : Prop :=
  State.reset.Inv

/-- Every step keeps the invariant of the block's registers, from every state that has it, whatever the host does and the transport
answers (R21, R22, R24 to R31, R79, R80, R203). -/
def Obligations.EveryStepKeepsTheInvariant : Prop :=
  ∀ s t : State, s.Inv → step s = .next t → t.Inv

/-- R203 with R201: in every state with the invariant STATUS has at most one bit set, and its code is never one of those the block
leaves to the host's policy. -/
def Obligations.StatusHasAtMostOneBit : Prop :=
  ∀ s : State, s.Inv →
    (s.status = 0 ∨ oneBit s.status = true) ∧ s.status ≠ s.params.stTransmission ∧ s.status ≠ s.params.stUnusable

/-! ## What a read returns (spec/10_state.md R22 to R32, R37) -/

/-- R22 to R32, R37: the value of each readable register is that register and no other, and each derived value is read off RESP as
R130 to R134 say; in a state with the invariant every value fits its register's width. That a read is zero-extended to 64 bits is
the model's choice (DESIGN CHOICE, notes/assumptions/25.md; for FILLER and XSTAT 18.md and 4.md). -/
def Obligations.ReadValuesAreTheRegisters : Prop :=
  ∀ s : State, s.Inv →
    (∀ r : HostReg, (regValue s r).toNat < 2 ^ regWidth s.params r) ∧
    regValue s .req = s.req ∧
    (∀ i : Fin 16, (regValue s (.csdbuf i)).toNat = s.csdbuf[i].toNat) ∧
    regValue s .busy = (if s.phase = .idle then 0 else 1) ∧
    (regValue s .lastOp).toNat = s.lastOp.toNat ∧
    (regValue s .status).toNat = s.status.toNat ∧
    (regValue s .xstat).toNat = s.xstat ∧
    (∀ i : Fin 6, (regValue s (.frame i)).toNat = s.frame[i].toNat) ∧
    (∀ i : Fin 5, (regValue s (.resp i)).toNat = s.resp[i].toNat) ∧
    (regValue s .rcount).toNat = s.rcount.toNat ∧
    (regValue s .filler).toNat = s.filler ∧
    regValue s .geomValid = (if s.geom.valid then 1 else 0) ∧
    (regValue s .geomVer).toNat = s.geom.ver.toNat ∧
    regValue s .capacity = s.geom.capacity ∧
    (regValue s .blLen).toNat = s.geom.blLen.toNat ∧
    (regValue s .blockSize).toNat = s.geom.blockSize.toNat ∧
    (regValue s .ccc).toNat = s.geom.ccc.toNat ∧
    (regValue s .tranSpeedRaw).toNat = s.geom.tranSpeedRaw.toNat ∧
    (regValue s .speedKbps).toNat = s.geom.speedKbps.toNat ∧
    regValue s .speedValid = (if s.geom.speedValid then 1 else 0) ∧
    regValue s .partialWr = (if s.geom.partialWr then 1 else 0) ∧
    (regValue s .cSize).toNat = s.geom.cSize.toNat ∧
    (regValue s .cSizeMult).toNat = s.geom.cSizeMult.toNat ∧
    regValue s .r1Idle = (if s.resp[0].getLsbD 0 then 1 else 0) ∧
    regValue s .r1EraseReset = (if s.resp[0].getLsbD 1 then 1 else 0) ∧
    regValue s .r1IllegalCmd = (if s.resp[0].getLsbD 2 then 1 else 0) ∧
    regValue s .r1CrcErr = (if s.resp[0].getLsbD 3 then 1 else 0) ∧
    regValue s .r1EraseSeqErr = (if s.resp[0].getLsbD 4 then 1 else 0) ∧
    regValue s .r1AddrErr = (if s.resp[0].getLsbD 5 then 1 else 0) ∧
    regValue s .r1ParamErr = (if s.resp[0].getLsbD 6 then 1 else 0) ∧
    regValue s .r1Ready = (if s.resp[0] = 0x00 then 1 else 0) ∧
    regValue s .r1IdleOnly = (if s.resp[0] = 0x01 then 1 else 0) ∧
    regValue s .ocrBusyRaw = (if s.resp[1].getLsbD 7 then 1 else 0) ∧
    regValue s .ocrCcs = (if s.resp[1].getLsbD 6 then 1 else 0) ∧
    regValue s .ocrVoltOk = (if s.resp[2].toNat % 32 = 31 ∧ 128 ≤ s.resp[3].toNat then 1 else 0) ∧
    (regValue s .r7Echo).toNat = s.resp[4].toNat ∧
    (regValue s .r7Vhs).toNat = s.resp[3].toNat % 16 ∧
    regValue s .r7Ok = (if s.resp[4] = 0x55 ∧ s.resp[3].toNat % 16 = 1 then 1 else 0)
end

