-- ==== Sys2Proof/Laws/Bits.lean ====
section
/-!
SUPPORT. The bit-level laws of the words: the fields of a request word and of a frame, and the bytes of a frame against its 48
bits.
-/

namespace Sys2Proof.Machine

section RequestWord

variable (op : BitVec 4) (ver rsv0 : BitVec 2) (idx : BitVec 6) (rsv1 : BitVec 18) (arg : BitVec 32)

@[simp] theorem reqOp_requestWord : reqOp (requestWord op ver rsv0 idx rsv1 arg) = op := by
  unfold reqOp requestWord
  apply BitVec.eq_of_getLsbD_eq
  intro k hk
  interval_cases k <;> simp

@[simp] theorem reqVer_requestWord : reqVer (requestWord op ver rsv0 idx rsv1 arg) = ver := by
  unfold reqVer requestWord
  apply BitVec.eq_of_getLsbD_eq
  intro k hk
  interval_cases k <;> simp

@[simp] theorem reqRsv0_requestWord : reqRsv0 (requestWord op ver rsv0 idx rsv1 arg) = rsv0 := by
  unfold reqRsv0 requestWord
  apply BitVec.eq_of_getLsbD_eq
  intro k hk
  interval_cases k <;> simp

@[simp] theorem reqIdx_requestWord : reqIdx (requestWord op ver rsv0 idx rsv1 arg) = idx := by
  unfold reqIdx requestWord
  apply BitVec.eq_of_getLsbD_eq
  intro k hk
  interval_cases k <;> simp

@[simp] theorem reqRsv1_requestWord : reqRsv1 (requestWord op ver rsv0 idx rsv1 arg) = rsv1 := by
  unfold reqRsv1 requestWord
  apply BitVec.eq_of_getLsbD_eq
  intro k hk
  interval_cases k <;> simp

@[simp] theorem reqArg_requestWord : reqArg (requestWord op ver rsv0 idx rsv1 arg) = arg := by
  unfold reqArg requestWord
  apply BitVec.eq_of_getLsbD_eq
  intro k hk
  interval_cases k <;> simp

end RequestWord

/-- A request word is its fields. -/
theorem requestWord_fields (w : Word) :
    requestWord (reqOp w) (reqVer w) (reqRsv0 w) (reqIdx w) (reqRsv1 w) (reqArg w) = w := by
  unfold requestWord reqOp reqVer reqRsv0 reqIdx reqRsv1 reqArg
  apply BitVec.eq_of_getLsbD_eq
  intro k hk
  interval_cases k <;> simp

/-- The bytes of a frame's 48 bits are the frame. -/
@[simp] theorem frameOfBits_frameToBits (f : Bytes 6) : frameOfBits (frameToBits f) = f := by
  have h (k : Nat) (hk : k < 6) : (frameOfBits (frameToBits f))[k] = f[k] := by
    unfold frameOfBits frameToBits
    interval_cases k <;> apply BitVec.eq_of_getLsbD_eq <;> intro j hj <;> interval_cases j <;>
      simp
  exact Vector.ext h

/-- 48 bits are the bits of their bytes. -/
@[simp] theorem frameToBits_frameOfBits (w : BitVec 48) : frameToBits (frameOfBits w) = w := by
  unfold frameToBits frameOfBits
  apply BitVec.eq_of_getLsbD_eq
  intro k hk
  interval_cases k <;> simp

/-- A frame with its start, transmission and stop bits right is the frame of its own fields. -/
theorem frameBytes_fields (w : BitVec 48) (h1 : w.extractLsb' 46 2 = 0b01#2) (h2 : w.extractLsb' 0 1 = 1#1) :
    frameBytes (w.extractLsb' 40 6) (w.extractLsb' 8 32) (w.extractLsb' 1 7) = frameOfBits w := by
  have a : w[46] = true := by simpa using congrArg (·.getLsbD 0) h1
  have b : w[47] = false := by simpa using congrArg (·.getLsbD 1) h1
  have c : w[0] = true := by simpa using congrArg (·.getLsbD 0) h2
  have h (k : Nat) (hk : k < 6) :
      (frameBytes (w.extractLsb' 40 6) (w.extractLsb' 8 32) (w.extractLsb' 1 7))[k] = (frameOfBits w)[k] := by
    unfold frameBytes frameOfBits frameHead
    interval_cases k <;> apply BitVec.eq_of_getLsbD_eq <;> intro j hj <;> interval_cases j <;>
      simp [a, b, c]
  exact Vector.ext h

end Sys2Proof.Machine
end

