-- ==== Sys2Proof/Laws/State.lean ====
section
/-!
SUPPORT. One lemma per field per update of the shared operations: a record update changes its own fields and leaves the others.
-/

namespace Sys2Proof.Machine

variable (s : State)

@[simp] theorem finish_params (code : Byte) : (finish code s).params = s.params := rfl
@[simp] theorem finish_phase (code : Byte) : (finish code s).phase = .idle := rfl
@[simp] theorem finish_req (code : Byte) : (finish code s).req = s.req := rfl
@[simp] theorem finish_csdbuf (code : Byte) : (finish code s).csdbuf = s.csdbuf := rfl
@[simp] theorem finish_lastOp (code : Byte) : (finish code s).lastOp = s.lastOp := rfl
@[simp] theorem finish_status (code : Byte) : (finish code s).status = code := rfl
@[simp] theorem finish_xstat (code : Byte) : (finish code s).xstat = s.xstat := rfl
@[simp] theorem finish_frame (code : Byte) : (finish code s).frame = s.frame := rfl
@[simp] theorem finish_resp (code : Byte) : (finish code s).resp = s.resp := rfl
@[simp] theorem finish_rcount (code : Byte) : (finish code s).rcount = s.rcount := rfl
@[simp] theorem finish_filler (code : Byte) : (finish code s).filler = s.filler := rfl
@[simp] theorem finish_geom (code : Byte) : (finish code s).geom = s.geom := rfl
@[simp] theorem finish_host (code : Byte) : (finish code s).host = s.host := rfl
@[simp] theorem finish_link (code : Byte) : (finish code s).link = s.link := rfl
@[simp] theorem finish_wire (code : Byte) : (finish code s).wire = s.wire := rfl
@[simp] theorem finish_readOut (code : Byte) : (finish code s).readOut = s.readOut := rfl
@[simp] theorem finish_draws (code : Byte) : (finish code s).draws = s.draws := rfl

@[simp] theorem latch_params (w : Word) : (latch w s).params = s.params := rfl
@[simp] theorem latch_phase (w : Word) : (latch w s).phase = s.phase := rfl
@[simp] theorem latch_req (w : Word) : (latch w s).req = w := rfl
@[simp] theorem latch_csdbuf (w : Word) : (latch w s).csdbuf = s.csdbuf := rfl
@[simp] theorem latch_lastOp (w : Word) : (latch w s).lastOp = reqOp w := rfl
@[simp] theorem latch_status (w : Word) : (latch w s).status = s.status := rfl
@[simp] theorem latch_xstat (w : Word) : (latch w s).xstat = 0 := rfl
@[simp] theorem latch_frame (w : Word) : (latch w s).frame = s.frame := rfl
@[simp] theorem latch_resp (w : Word) : (latch w s).resp = s.resp := rfl
@[simp] theorem latch_rcount (w : Word) : (latch w s).rcount = s.rcount := rfl
@[simp] theorem latch_filler (w : Word) : (latch w s).filler = s.filler := rfl
@[simp] theorem latch_geom (w : Word) : (latch w s).geom = s.geom := rfl
@[simp] theorem latch_host (w : Word) : (latch w s).host = s.host := rfl
@[simp] theorem latch_link (w : Word) : (latch w s).link = s.link := rfl
@[simp] theorem latch_wire (w : Word) : (latch w s).wire = s.wire := rfl
@[simp] theorem latch_readOut (w : Word) : (latch w s).readOut = s.readOut := rfl
@[simp] theorem latch_draws (w : Word) : (latch w s).draws = s.draws := rfl

@[simp] theorem writeFrame_params (idx : BitVec 6) (arg : BitVec 32) : (writeFrame idx arg s).params = s.params := rfl
@[simp] theorem writeFrame_phase (idx : BitVec 6) (arg : BitVec 32) : (writeFrame idx arg s).phase = s.phase := rfl
@[simp] theorem writeFrame_req (idx : BitVec 6) (arg : BitVec 32) : (writeFrame idx arg s).req = s.req := rfl
@[simp] theorem writeFrame_csdbuf (idx : BitVec 6) (arg : BitVec 32) : (writeFrame idx arg s).csdbuf = s.csdbuf := rfl
@[simp] theorem writeFrame_lastOp (idx : BitVec 6) (arg : BitVec 32) : (writeFrame idx arg s).lastOp = s.lastOp := rfl
@[simp] theorem writeFrame_status (idx : BitVec 6) (arg : BitVec 32) : (writeFrame idx arg s).status = s.status := rfl
@[simp] theorem writeFrame_xstat (idx : BitVec 6) (arg : BitVec 32) : (writeFrame idx arg s).xstat = s.xstat := rfl
@[simp] theorem writeFrame_frame (idx : BitVec 6) (arg : BitVec 32) : (writeFrame idx arg s).frame = buildFrame idx arg := rfl
@[simp] theorem writeFrame_resp (idx : BitVec 6) (arg : BitVec 32) : (writeFrame idx arg s).resp = s.resp := rfl
@[simp] theorem writeFrame_rcount (idx : BitVec 6) (arg : BitVec 32) : (writeFrame idx arg s).rcount = s.rcount := rfl
@[simp] theorem writeFrame_filler (idx : BitVec 6) (arg : BitVec 32) : (writeFrame idx arg s).filler = s.filler := rfl
@[simp] theorem writeFrame_geom (idx : BitVec 6) (arg : BitVec 32) : (writeFrame idx arg s).geom = s.geom := rfl
@[simp] theorem writeFrame_host (idx : BitVec 6) (arg : BitVec 32) : (writeFrame idx arg s).host = s.host := rfl
@[simp] theorem writeFrame_link (idx : BitVec 6) (arg : BitVec 32) : (writeFrame idx arg s).link = s.link := rfl
@[simp] theorem writeFrame_wire (idx : BitVec 6) (arg : BitVec 32) : (writeFrame idx arg s).wire = s.wire := rfl
@[simp] theorem writeFrame_readOut (idx : BitVec 6) (arg : BitVec 32) : (writeFrame idx arg s).readOut = s.readOut := rfl
@[simp] theorem writeFrame_draws (idx : BitVec 6) (arg : BitVec 32) : (writeFrame idx arg s).draws = s.draws := rfl

@[simp] theorem presetResponse_params : (presetResponse s).params = s.params := rfl
@[simp] theorem presetResponse_phase : (presetResponse s).phase = s.phase := rfl
@[simp] theorem presetResponse_req : (presetResponse s).req = s.req := rfl
@[simp] theorem presetResponse_csdbuf : (presetResponse s).csdbuf = s.csdbuf := rfl
@[simp] theorem presetResponse_lastOp : (presetResponse s).lastOp = s.lastOp := rfl
@[simp] theorem presetResponse_status : (presetResponse s).status = s.status := rfl
@[simp] theorem presetResponse_xstat : (presetResponse s).xstat = s.xstat := rfl
@[simp] theorem presetResponse_frame : (presetResponse s).frame = s.frame := rfl
@[simp] theorem presetResponse_resp : (presetResponse s).resp = Vector.replicate 5 0xFF := rfl
@[simp] theorem presetResponse_rcount : (presetResponse s).rcount = 0 := rfl
@[simp] theorem presetResponse_filler : (presetResponse s).filler = 0 := rfl
@[simp] theorem presetResponse_geom : (presetResponse s).geom = s.geom := rfl
@[simp] theorem presetResponse_host : (presetResponse s).host = s.host := rfl
@[simp] theorem presetResponse_link : (presetResponse s).link = s.link := rfl
@[simp] theorem presetResponse_wire : (presetResponse s).wire = s.wire := rfl
@[simp] theorem presetResponse_readOut : (presetResponse s).readOut = s.readOut := rfl
@[simp] theorem presetResponse_draws : (presetResponse s).draws = s.draws := rfl

@[simp] theorem startCommand_params (idx : BitVec 6) (arg : BitVec 32) : (startCommand idx arg s).params = s.params := rfl
@[simp] theorem startCommand_phase (idx : BitVec 6) (arg : BitVec 32) : (startCommand idx arg s).phase = .tx := rfl
@[simp] theorem startCommand_req (idx : BitVec 6) (arg : BitVec 32) : (startCommand idx arg s).req = s.req := rfl
@[simp] theorem startCommand_csdbuf (idx : BitVec 6) (arg : BitVec 32) : (startCommand idx arg s).csdbuf = s.csdbuf := rfl
@[simp] theorem startCommand_lastOp (idx : BitVec 6) (arg : BitVec 32) : (startCommand idx arg s).lastOp = s.lastOp := rfl
@[simp] theorem startCommand_status (idx : BitVec 6) (arg : BitVec 32) : (startCommand idx arg s).status = s.status := rfl
@[simp] theorem startCommand_xstat (idx : BitVec 6) (arg : BitVec 32) : (startCommand idx arg s).xstat = s.xstat := rfl
@[simp] theorem startCommand_frame (idx : BitVec 6) (arg : BitVec 32) : (startCommand idx arg s).frame = buildFrame idx arg := rfl
@[simp] theorem startCommand_resp (idx : BitVec 6) (arg : BitVec 32) : (startCommand idx arg s).resp = Vector.replicate 5 0xFF := rfl
@[simp] theorem startCommand_rcount (idx : BitVec 6) (arg : BitVec 32) : (startCommand idx arg s).rcount = 0 := rfl
@[simp] theorem startCommand_filler (idx : BitVec 6) (arg : BitVec 32) : (startCommand idx arg s).filler = 0 := rfl
@[simp] theorem startCommand_geom (idx : BitVec 6) (arg : BitVec 32) : (startCommand idx arg s).geom = s.geom := rfl
@[simp] theorem startCommand_host (idx : BitVec 6) (arg : BitVec 32) : (startCommand idx arg s).host = s.host := rfl
@[simp] theorem startCommand_link (idx : BitVec 6) (arg : BitVec 32) : (startCommand idx arg s).link = s.link := rfl
@[simp] theorem startCommand_wire (idx : BitVec 6) (arg : BitVec 32) : (startCommand idx arg s).wire = s.wire := rfl
@[simp] theorem startCommand_readOut (idx : BitVec 6) (arg : BitVec 32) : (startCommand idx arg s).readOut = s.readOut := rfl
@[simp] theorem startCommand_draws (idx : BitVec 6) (arg : BitVec 32) : (startCommand idx arg s).draws = s.draws := rfl

@[simp] theorem failLink_params (ts : XStatus) : (failLink ts s).params = s.params := rfl
@[simp] theorem failLink_phase (ts : XStatus) : (failLink ts s).phase = .idle := rfl
@[simp] theorem failLink_req (ts : XStatus) : (failLink ts s).req = s.req := rfl
@[simp] theorem failLink_csdbuf (ts : XStatus) : (failLink ts s).csdbuf = s.csdbuf := rfl
@[simp] theorem failLink_lastOp (ts : XStatus) : (failLink ts s).lastOp = s.lastOp := rfl
@[simp] theorem failLink_status (ts : XStatus) : (failLink ts s).status = s.params.stError := rfl
@[simp] theorem failLink_xstat (ts : XStatus) : (failLink ts s).xstat = ts := rfl
@[simp] theorem failLink_frame (ts : XStatus) : (failLink ts s).frame = s.frame := rfl
@[simp] theorem failLink_resp (ts : XStatus) : (failLink ts s).resp = s.resp := rfl
@[simp] theorem failLink_rcount (ts : XStatus) : (failLink ts s).rcount = s.rcount := rfl
@[simp] theorem failLink_filler (ts : XStatus) : (failLink ts s).filler = s.filler := rfl
@[simp] theorem failLink_geom (ts : XStatus) : (failLink ts s).geom = s.geom := rfl
@[simp] theorem failLink_host (ts : XStatus) : (failLink ts s).host = s.host := rfl
@[simp] theorem failLink_link (ts : XStatus) : (failLink ts s).link = s.link := rfl
@[simp] theorem failLink_wire (ts : XStatus) : (failLink ts s).wire = s.wire := rfl
@[simp] theorem failLink_readOut (ts : XStatus) : (failLink ts s).readOut = s.readOut := rfl
@[simp] theorem failLink_draws (ts : XStatus) : (failLink ts s).draws = s.draws := rfl

@[simp] theorem answered_params (t : Transaction) (rest : List LinkAnswer) : (answered t rest s).params = s.params := rfl
@[simp] theorem answered_phase (t : Transaction) (rest : List LinkAnswer) : (answered t rest s).phase = s.phase := rfl
@[simp] theorem answered_req (t : Transaction) (rest : List LinkAnswer) : (answered t rest s).req = s.req := rfl
@[simp] theorem answered_csdbuf (t : Transaction) (rest : List LinkAnswer) : (answered t rest s).csdbuf = s.csdbuf := rfl
@[simp] theorem answered_lastOp (t : Transaction) (rest : List LinkAnswer) : (answered t rest s).lastOp = s.lastOp := rfl
@[simp] theorem answered_status (t : Transaction) (rest : List LinkAnswer) : (answered t rest s).status = s.status := rfl
@[simp] theorem answered_xstat (t : Transaction) (rest : List LinkAnswer) : (answered t rest s).xstat = s.xstat := rfl
@[simp] theorem answered_frame (t : Transaction) (rest : List LinkAnswer) : (answered t rest s).frame = s.frame := rfl
@[simp] theorem answered_resp (t : Transaction) (rest : List LinkAnswer) : (answered t rest s).resp = s.resp := rfl
@[simp] theorem answered_rcount (t : Transaction) (rest : List LinkAnswer) : (answered t rest s).rcount = s.rcount := rfl
@[simp] theorem answered_filler (t : Transaction) (rest : List LinkAnswer) : (answered t rest s).filler = s.filler := rfl
@[simp] theorem answered_geom (t : Transaction) (rest : List LinkAnswer) : (answered t rest s).geom = s.geom := rfl
@[simp] theorem answered_host (t : Transaction) (rest : List LinkAnswer) : (answered t rest s).host = s.host := rfl
@[simp] theorem answered_link (t : Transaction) (rest : List LinkAnswer) : (answered t rest s).link = rest := rfl
@[simp] theorem answered_wire (t : Transaction) (rest : List LinkAnswer) : (answered t rest s).wire = t :: s.wire := rfl
@[simp] theorem answered_readOut (t : Transaction) (rest : List LinkAnswer) : (answered t rest s).readOut = s.readOut := rfl
@[simp] theorem answered_draws (t : Transaction) (rest : List LinkAnswer) : (answered t rest s).draws = s.draws := rfl

@[simp] theorem writeGeometry_params (g : Geometry) : (writeGeometry g s).params = s.params := rfl
@[simp] theorem writeGeometry_phase (g : Geometry) : (writeGeometry g s).phase = s.phase := rfl
@[simp] theorem writeGeometry_req (g : Geometry) : (writeGeometry g s).req = s.req := rfl
@[simp] theorem writeGeometry_csdbuf (g : Geometry) : (writeGeometry g s).csdbuf = s.csdbuf := rfl
@[simp] theorem writeGeometry_lastOp (g : Geometry) : (writeGeometry g s).lastOp = s.lastOp := rfl
@[simp] theorem writeGeometry_status (g : Geometry) : (writeGeometry g s).status = s.status := rfl
@[simp] theorem writeGeometry_xstat (g : Geometry) : (writeGeometry g s).xstat = s.xstat := rfl
@[simp] theorem writeGeometry_frame (g : Geometry) : (writeGeometry g s).frame = s.frame := rfl
@[simp] theorem writeGeometry_resp (g : Geometry) : (writeGeometry g s).resp = s.resp := rfl
@[simp] theorem writeGeometry_rcount (g : Geometry) : (writeGeometry g s).rcount = s.rcount := rfl
@[simp] theorem writeGeometry_filler (g : Geometry) : (writeGeometry g s).filler = s.filler := rfl
@[simp] theorem writeGeometry_geom (g : Geometry) : (writeGeometry g s).geom = g := rfl
@[simp] theorem writeGeometry_host (g : Geometry) : (writeGeometry g s).host = s.host := rfl
@[simp] theorem writeGeometry_link (g : Geometry) : (writeGeometry g s).link = s.link := rfl
@[simp] theorem writeGeometry_wire (g : Geometry) : (writeGeometry g s).wire = s.wire := rfl
@[simp] theorem writeGeometry_readOut (g : Geometry) : (writeGeometry g s).readOut = s.readOut := rfl
@[simp] theorem writeGeometry_draws (g : Geometry) : (writeGeometry g s).draws = s.draws := rfl

@[simp] theorem writeCsd_params (i : Fin 16) (b : Byte) : (writeCsd i b s).params = s.params := rfl
@[simp] theorem writeCsd_phase (i : Fin 16) (b : Byte) : (writeCsd i b s).phase = s.phase := rfl
@[simp] theorem writeCsd_req (i : Fin 16) (b : Byte) : (writeCsd i b s).req = s.req := rfl
@[simp] theorem writeCsd_csdbuf (i : Fin 16) (b : Byte) : (writeCsd i b s).csdbuf = s.csdbuf.set i b := rfl
@[simp] theorem writeCsd_lastOp (i : Fin 16) (b : Byte) : (writeCsd i b s).lastOp = s.lastOp := rfl
@[simp] theorem writeCsd_status (i : Fin 16) (b : Byte) : (writeCsd i b s).status = s.status := rfl
@[simp] theorem writeCsd_xstat (i : Fin 16) (b : Byte) : (writeCsd i b s).xstat = s.xstat := rfl
@[simp] theorem writeCsd_frame (i : Fin 16) (b : Byte) : (writeCsd i b s).frame = s.frame := rfl
@[simp] theorem writeCsd_resp (i : Fin 16) (b : Byte) : (writeCsd i b s).resp = s.resp := rfl
@[simp] theorem writeCsd_rcount (i : Fin 16) (b : Byte) : (writeCsd i b s).rcount = s.rcount := rfl
@[simp] theorem writeCsd_filler (i : Fin 16) (b : Byte) : (writeCsd i b s).filler = s.filler := rfl
@[simp] theorem writeCsd_geom (i : Fin 16) (b : Byte) : (writeCsd i b s).geom = s.geom := rfl
@[simp] theorem writeCsd_host (i : Fin 16) (b : Byte) : (writeCsd i b s).host = s.host := rfl
@[simp] theorem writeCsd_link (i : Fin 16) (b : Byte) : (writeCsd i b s).link = s.link := rfl
@[simp] theorem writeCsd_wire (i : Fin 16) (b : Byte) : (writeCsd i b s).wire = s.wire := rfl
@[simp] theorem writeCsd_readOut (i : Fin 16) (b : Byte) : (writeCsd i b s).readOut = s.readOut := rfl
@[simp] theorem writeCsd_draws (i : Fin 16) (b : Byte) : (writeCsd i b s).draws = s.draws := rfl

end Sys2Proof.Machine
end

