-- ==== Sys2Proof/Laws/Ops.lean ====
section
/-!
SUPPORT. For each shared operation, once, everything it can do; later proofs cite these instead of unfolding it.
-/

namespace Sys2Proof.Machine

/-- Transmit waits, fails, or goes on to the status byte. -/
theorem transmit_cases (f : Bytes 6) (s : State) :
    (s.link = [] ∧ transmit f s = s) ∨
    ∃ a rest, s.link = a :: rest ∧
      ((a.status ≠ 0 ∧ transmit f s = failLink a.status (answered (.transmit f) rest s)) ∨
       (a.status = 0 ∧ transmit f s = { answered (.transmit f) rest s with phase := .rxStatus })) := by
  unfold transmit
  cases h : s.link with
  | nil => exact .inl ⟨rfl, rfl⟩
  | cons a rest => by_cases h0 : a.status = 0 <;> simp [h0]

/-- A status byte goes on to the trailing bytes or finishes. -/
theorem storeStatusByte_cases (b : Byte) (s : State) :
    (0 < tailCount (reqOp s.req) ∧
      storeStatusByte b s = { s with resp := s.resp.set 0 b, rcount := 1, phase := .rxTail }) ∨
    (tailCount (reqOp s.req) = 0 ∧
      storeStatusByte b s = finish s.params.stOk { s with resp := s.resp.set 0 b, rcount := 1 }) := by
  unfold storeStatusByte
  split
  · exact .inl ⟨‹_›, rfl⟩
  · exact .inr ⟨by omega, rfl⟩

/-- A filler byte is counted, and the one past the bound is a timeout. -/
theorem countFiller_cases (s : State) :
    (s.filler + 1 ≤ s.params.rFillerMax ∧ countFiller s = { s with filler := s.filler + 1 }) ∨
    (s.params.rFillerMax < s.filler + 1 ∧
      countFiller s = finish s.params.stTimeout { s with filler := s.filler + 1 }) := by
  unfold countFiller
  split
  · exact .inr ⟨‹_›, rfl⟩
  · exact .inl ⟨by omega, rfl⟩

/-- A trailing byte is stored, and the last one finishes. -/
theorem storeTailByte_cases (b : Byte) (s : State) :
    (tailCount (reqOp s.req) ≤ s.rcount.toNat ∧ storeTailByte b s =
      finish s.params.stOk { s with resp := s.resp.setIfInBounds s.rcount.toNat b, rcount := s.rcount + 1 }) ∨
    (s.rcount.toNat < tailCount (reqOp s.req) ∧ storeTailByte b s =
      { s with resp := s.resp.setIfInBounds s.rcount.toNat b, rcount := s.rcount + 1 }) := by
  unfold storeTailByte
  split
  · exact .inl ⟨‹_›, rfl⟩
  · exact .inr ⟨by omega, rfl⟩

/-- A Receive of the status loop waits, fails, counts a filler, or stores the status byte. -/
theorem receiveStatus_cases (s : State) :
    (s.link = [] ∧ receiveStatus s = s) ∨
    ∃ a rest, s.link = a :: rest ∧
      ((a.status ≠ 0 ∧ receiveStatus s = failLink a.status (answered .receive rest s)) ∨
       (a.status = 0 ∧ a.byte.getLsbD 7 = true ∧ receiveStatus s = countFiller (answered .receive rest s)) ∨
       (a.status = 0 ∧ a.byte.getLsbD 7 = false ∧ receiveStatus s = storeStatusByte a.byte (answered .receive rest s))) := by
  unfold receiveStatus
  cases h : s.link with
  | nil => exact .inl ⟨rfl, rfl⟩
  | cons a rest =>
    refine .inr ⟨a, rest, rfl, ?_⟩
    by_cases h0 : a.status = 0
    · cases h7 : a.byte[7] <;> simp [h0, h7]
    · simp [h0]

/-- A Receive of the trailing bytes waits, fails, or stores the byte. -/
theorem receiveTail_cases (s : State) :
    (s.link = [] ∧ receiveTail s = s) ∨
    ∃ a rest, s.link = a :: rest ∧
      ((a.status ≠ 0 ∧ receiveTail s = failLink a.status (answered .receive rest s)) ∨
       (a.status = 0 ∧ receiveTail s = storeTailByte a.byte (answered .receive rest s))) := by
  unfold receiveTail
  cases h : s.link with
  | nil => exact .inl ⟨rfl, rfl⟩
  | cons a rest => by_cases h0 : a.status = 0 <;> simp [h0]

/-- What a CSD.DECODE leaves, whatever its version operand. -/
theorem execCsdDecode_cases (v : BitVec 2) (i : BitVec 6) (a : BitVec 32) (s : State) :
    (v = 1#2 ∧ execCsdDecode v i a s = .next (finish s.params.stOk (writeGeometry (decodeV1 s.csdbuf) s))) ∨
    (v = 2#2 ∧ execCsdDecode v i a s = .next (finish s.params.stOk (writeGeometry (decodeV2 s.csdbuf) s))) ∨
    (v ≠ 1#2 ∧ v ≠ 2#2 ∧ execCsdDecode v i a s = .next (finish s.params.stError (writeGeometry .zero s))) := by
  unfold execCsdDecode
  by_cases h1 : v = 1#2
  · exact .inl ⟨h1, by simp [h1]⟩
  · by_cases h2 : v = 2#2
    · exact .inr (.inl ⟨h2, by simp [h2]⟩)
    · exact .inr (.inr ⟨h1, h2, by simp [h1, h2]⟩)

/-- The row of an index and an argument: one of the named rows with its own index and argument, or the last row. -/
theorem frameRow_cases (idx : BitVec 6) (arg : BitVec 32) (crc : BitVec 7) :
    (idx = 0#6 ∧ arg = 0#32 ∧ frameRow idx arg crc = .sdCmd0GoIdle crc) ∨
    (idx = 8#6 ∧ arg = 0x155#32 ∧ frameRow idx arg crc = .sdCmd8SendIfCond crc) ∨
    (idx = 9#6 ∧ arg = 0#32 ∧ frameRow idx arg crc = .sdCmd9SendCsd crc) ∨
    (idx = 55#6 ∧ arg = 0#32 ∧ frameRow idx arg crc = .sdCmd55AppCmd crc) ∨
    (idx = 41#6 ∧ arg = 0#32 ∧ frameRow idx arg crc = .sdAcmd41SendOpCondV1 crc) ∨
    (idx = 41#6 ∧ arg = 0x40000000#32 ∧ frameRow idx arg crc = .sdAcmd41SendOpCondV2 crc) ∨
    (idx = 58#6 ∧ arg = 0#32 ∧ frameRow idx arg crc = .sdCmd58ReadOcr crc) ∨
    (idx = 59#6 ∧ arg = 1#32 ∧ frameRow idx arg crc = .sdCmd59CrcOn crc) ∨
    (idx = 59#6 ∧ arg = 0#32 ∧ frameRow idx arg crc = .sdCmd59CrcOff crc) ∨
    (namedFrame idx arg = false ∧ frameRow idx arg crc = .sdAnyFrame idx arg crc) := by
  unfold frameRow
  split_ifs with h1 h2 h3 h4 h5 h6 h7 h8 h9 <;> simp_all [namedFrame]

/-- Every frame row transmits the bytes of its fields. -/
theorem exec_frameRow (idx : BitVec 6) (arg : BitVec 32) (crc : BitVec 7) (s : State) :
    exec (frameRow idx arg crc) s = .next (transmit (frameBytes idx arg crc) s) := by
  unfold frameRow
  split_ifs with h1 h2 h3 h4 h5 h6 h7 h8 h9 <;>
    first
      | (obtain ⟨rfl, rfl⟩ := ‹_ ∧ _›; rfl)
      | rfl

/-- In phase TX the six bytes of FRAME go out, whatever row they are. -/
theorem sendFrame_eq (s : State) : sendFrame s = .next (transmit s.frame s) := by
  unfold sendFrame
  cases h : decode (.frame (frameToBits s.frame)) with
  | error e => rfl
  | ok i =>
    simp only [decode, decodeFrame] at h
    split_ifs at h with h1 h2
    obtain rfl := Except.ok.inj h
    simp only [exec_frameRow, frameBytes_fields _ (by simpa using h1) (by simpa using h2), frameOfBits_frameToBits]

/-- Every instruction answers a next state: none stops. -/
theorem exec_answers (i : Instr) (s : State) : ∃ t, exec i s = .next t := by
  cases i
  case csdDecode v i a =>
    rcases execCsdDecode_cases v i a s with ⟨-, h⟩ | ⟨-, h⟩ | ⟨-, -, h⟩ <;> exact ⟨_, h⟩
  all_goals exact ⟨_, rfl⟩

/-- A word with a reserved OP or a reserved bit set runs one of the three refused rows. -/
theorem exec_decodeReserved (w : Word) (s : State) : exec (decodeReserved w) s = .next (refuseRequest s) := by
  unfold decodeReserved
  split_ifs <;> rfl

/-- The accepting step, by the word: refused, or one of the six operations on the latched state. -/
theorem accept_cases (w : Word) (s : State) :
    ((reservedClear w = false ∨ 6 ≤ (reqOp w).toNat) ∧ accept w s = .next (refuseRequest (latch w s))) ∨
    (reservedClear w = true ∧
      ((reqOp w = 0#4 ∧ accept w s = .next (finish s.params.stOk (latch w s))) ∨
       (reqOp w = 1#4 ∧ accept w s = .next (finish s.params.stOk (writeFrame (reqIdx w) (reqArg w) (latch w s)))) ∨
       ((reqOp w = 2#4 ∨ reqOp w = 3#4 ∨ reqOp w = 4#4) ∧
          accept w s = .next (startCommand (reqIdx w) (reqArg w) (latch w s))) ∨
       (reqOp w = 5#4 ∧ accept w s = execCsdDecode (reqVer w) (reqIdx w) (reqArg w) (latch w s)))) := by
  unfold accept decodeRequest
  cases hr : reservedClear w with
  | false => exact .inl ⟨.inl rfl, by simp [exec_decodeReserved]⟩
  | true =>
    by_cases h6 : 6 ≤ (reqOp w).toNat
    · refine .inl ⟨.inr h6, ?_⟩
      have hne (k : BitVec 4) (hk : k.toNat < 6) : reqOp w ≠ k := by
        rintro h
        rw [h] at h6
        omega
      simp [hne 0#4 (by decide), hne 1#4 (by decide), hne 2#4 (by decide), hne 3#4 (by decide), hne 4#4 (by decide),
        hne 5#4 (by decide), exec_decodeReserved]
    · refine .inr ⟨rfl, ?_⟩
      have h : ∀ o : BitVec 4, ¬ 6 ≤ o.toNat → o = 0#4 ∨ o = 1#4 ∨ o = 2#4 ∨ o = 3#4 ∨ o = 4#4 ∨ o = 5#4 := by decide
      rcases h _ h6 with h | h | h | h | h | h <;> simp [h] <;> rfl

/-- The block's own move: idle it does nothing, in the other phases it runs its transaction. -/
theorem advance_eq (s : State) :
    advance s = .next (match s.phase with
      | .idle => s
      | .tx => transmit s.frame s
      | .rxStatus => receiveStatus s
      | .rxTail => receiveTail s) := by
  unfold advance
  cases s.phase <;> simp [sendFrame_eq]

/-- The accepting step answers a next state. -/
theorem accept_answers (w : Word) (s : State) : ∃ t, accept w s = .next t := exec_answers _ _

end Sys2Proof.Machine
end

