-- ==== Sys2Proof/Laws/PerInstr.lean ====
section
/-!
SUPPORT. One statement per instruction (LAWS.json, family TableRow): the code of a well-formed instruction falls under its own
row of spec/opcode_table.json, rows taken in the table's order. The table's masks and matches are written out again here, so that
the encoder is held against a second copy of them.
-/

namespace Sys2Proof.Laws

open Machine

/-- A row of the opcode table: its length, the bits it fixes, and their values. -/
structure OpRow where
  mnemonic : String
  nbits : Nat
  mask : Nat
  value : Nat
  deriving DecidableEq, Repr

/-- The request-word rows, in order ("mask" and "match" of the table). -/
def requestRows : List OpRow :=
  [⟨"NOP", 64, 0xFFFFC0CF, 0x0⟩, ⟨"FRAME", 64, 0xFFFFC0CF, 0x1⟩, ⟨"CMD.R1", 64, 0xFFFFC0CF, 0x2⟩,
    ⟨"CMD.R3", 64, 0xFFFFC0CF, 0x3⟩, ⟨"CMD.R7", 64, 0xFFFFC0CF, 0x4⟩, ⟨"CSD.DECODE", 64, 0xFFFFC0CF, 0x5⟩,
    ⟨"RESERVED.OP6-7", 64, 0xE, 0x6⟩, ⟨"RESERVED.OP8-F", 64, 0x8, 0x8⟩, ⟨"RESERVED.OTHER", 64, 0x0, 0x0⟩]

/-- The command-frame rows, in order (the fixed digits of the table's "encoding"; bit 47 stands first). -/
def frameTable : List OpRow :=
  [⟨"SD.CMD0_GO_IDLE", 48, 0xFFFFFFFFFF01, 0x400000000001⟩,
    ⟨"SD.CMD8_SEND_IF_COND", 48, 0xFFFFFFFFFF01, 0x480000015501⟩,
    ⟨"SD.CMD9_SEND_CSD", 48, 0xFFFFFFFFFF01, 0x490000000001⟩,
    ⟨"SD.CMD55_APP_CMD", 48, 0xFFFFFFFFFF01, 0x770000000001⟩,
    ⟨"SD.ACMD41_SEND_OP_COND_v1", 48, 0xFFFFFFFFFF01, 0x690000000001⟩,
    ⟨"SD.ACMD41_SEND_OP_COND_v2", 48, 0xFFFFFFFFFF01, 0x694000000001⟩,
    ⟨"SD.CMD58_READ_OCR", 48, 0xFFFFFFFFFF01, 0x7A0000000001⟩,
    ⟨"SD.CMD59_CRC_ON", 48, 0xFFFFFFFFFF01, 0x7B0000000101⟩,
    ⟨"SD.CMD59_CRC_OFF", 48, 0xFFFFFFFFFF01, 0x7B0000000001⟩,
    ⟨"SD.CMDn__any_frame", 48, 0xC00000000001, 0x400000000001⟩]

/-- The row's mnemonic, as the table has it. -/
def mnemonic : Instr → String
  | .nop _ _ _ => "NOP"
  | .frame _ _ _ => "FRAME"
  | .cmdR1 _ _ _ => "CMD.R1"
  | .cmdR3 _ _ _ => "CMD.R3"
  | .cmdR7 _ _ _ => "CMD.R7"
  | .csdDecode _ _ _ => "CSD.DECODE"
  | .reservedOp67 _ => "RESERVED.OP6-7"
  | .reservedOp8F _ => "RESERVED.OP8-F"
  | .reservedOther _ => "RESERVED.OTHER"
  | .sdCmd0GoIdle _ => "SD.CMD0_GO_IDLE"
  | .sdCmd8SendIfCond _ => "SD.CMD8_SEND_IF_COND"
  | .sdCmd9SendCsd _ => "SD.CMD9_SEND_CSD"
  | .sdCmd55AppCmd _ => "SD.CMD55_APP_CMD"
  | .sdAcmd41SendOpCondV1 _ => "SD.ACMD41_SEND_OP_COND_v1"
  | .sdAcmd41SendOpCondV2 _ => "SD.ACMD41_SEND_OP_COND_v2"
  | .sdCmd58ReadOcr _ => "SD.CMD58_READ_OCR"
  | .sdCmd59CrcOn _ => "SD.CMD59_CRC_ON"
  | .sdCmd59CrcOff _ => "SD.CMD59_CRC_OFF"
  | .sdAnyFrame _ _ _ => "SD.CMDn__any_frame"

/-- The first row a code matches. -/
def firstRow : Fetched → Option OpRow
  | .request w => requestRows.find? fun r => w &&& BitVec.ofNat 64 r.mask == BitVec.ofNat 64 r.value
  | .frame f => frameTable.find? fun r => f &&& BitVec.ofNat 48 r.mask == BitVec.ofNat 48 r.value

/-- The code of a well-formed instruction falls under the instruction's own row. -/
def TableRow.Statement (i : Instr) : Prop :=
  i.wf = true → (firstRow (encode i)).map OpRow.mnemonic = some (mnemonic i)

/-! ## What a match means in terms of fields -/

/-- The bits that every operation's row fixes are OP and the reserved fields. -/
theorem request_masked (w : Word) :
    w &&& 0xFFFFC0CF#64 = requestWord (reqOp w) 0 (reqRsv0 w) 0 (reqRsv1 w) 0 := by
  unfold requestWord reqOp reqRsv0 reqRsv1
  apply BitVec.eq_of_getLsbD_eq
  intro k hk
  interval_cases k <;> simp

/-- A word matches an operation's row exactly when it has the OP and clear reserved bits. -/
theorem request_matches (w : Word) (op : BitVec 4) :
    (w &&& 0xFFFFC0CF#64 = requestWord op 0 0 0 0 0) ↔ (reservedClear w = true ∧ reqOp w = op) := by
  rw [request_masked]
  constructor
  · intro h
    have h1 := congrArg reqOp h
    have h2 := congrArg reqRsv0 h
    have h3 := congrArg reqRsv1 h
    simp only [reqOp_requestWord, reqRsv0_requestWord, reqRsv1_requestWord] at h1 h2 h3
    simp [reservedClear, h1, h2, h3]
  · intro ⟨h, ho⟩
    simp only [reservedClear, Bool.and_eq_true, beq_iff_eq] at h
    rw [h.1, h.2, ho]
    rfl

/-- The same for the rows' own numbers. -/
theorem request_row (w : Word) (k : BitVec 4) :
    (w &&& 0xFFFFC0CF#64 == k.setWidth 64) = (reservedClear w && reqOp w == k) := by
  have h : k.setWidth 64 = requestWord k 0 0 0 0 0 := by simp [requestWord]
  rw [h, Bool.eq_iff_iff]
  simp only [beq_iff_eq, request_matches, Bool.and_eq_true]

/-- Bits 3:1 of a word are 3 for OP 6 and 7, and for no other. -/
theorem op67_row (w : Word) : (w &&& 0xE#64 == 0x6#64) = (reqOp w == 6#4 || reqOp w == 7#4) := by
  have h : w &&& 0xE#64 = (reqOp w &&& 0xE#4).setWidth 64 := by
    unfold reqOp
    apply BitVec.eq_of_getLsbD_eq
    intro k hk
    interval_cases k <;> simp
  rw [h]
  generalize reqOp w = o
  revert o
  decide

/-- Bit 3 of a word is 1 for OP 8 and above, and for no other. -/
theorem op8F_row (w : Word) : (w &&& 0x8#64 == 0x8#64) = decide (8 ≤ (reqOp w).toNat) := by
  have h : w &&& 0x8#64 = (reqOp w &&& 0x8#4).setWidth 64 := by
    unfold reqOp
    apply BitVec.eq_of_getLsbD_eq
    intro k hk
    interval_cases k <;> simp
  rw [h]
  generalize reqOp w = o
  revert o
  decide

/-- The row of a request word, read off its fields. -/
theorem firstRow_request (w : Word) :
    (firstRow (.request w)).map OpRow.mnemonic = some (
      if reservedClear w = true ∧ reqOp w = 0#4 then "NOP"
      else if reservedClear w = true ∧ reqOp w = 1#4 then "FRAME"
      else if reservedClear w = true ∧ reqOp w = 2#4 then "CMD.R1"
      else if reservedClear w = true ∧ reqOp w = 3#4 then "CMD.R3"
      else if reservedClear w = true ∧ reqOp w = 4#4 then "CMD.R7"
      else if reservedClear w = true ∧ reqOp w = 5#4 then "CSD.DECODE"
      else if reqOp w = 6#4 ∨ reqOp w = 7#4 then "RESERVED.OP6-7"
      else if 8 ≤ (reqOp w).toNat then "RESERVED.OP8-F"
      else "RESERVED.OTHER") := by
  have r0 := request_row w 0#4
  have r1 := request_row w 1#4
  have r2 := request_row w 2#4
  have r3 := request_row w 3#4
  have r4 := request_row w 4#4
  have r5 := request_row w 5#4
  have r6 := op67_row w
  have r7 := op8F_row w
  simp only [BitVec.reduceSetWidth] at r0 r1 r2 r3 r4 r5
  have r8 : (w &&& BitVec.ofNat 64 0 == BitVec.ofNat 64 0) = true := by simp
  simp only [firstRow, requestRows, List.find?_cons, r0, r1, r2, r3, r4, r5, r6, r7, r8]
  cases reservedClear w <;> (generalize reqOp w = o; revert o; decide)

/-- The 48 bits of a frame. -/
def frameBits (idx : BitVec 6) (arg : BitVec 32) (crc : BitVec 7) : BitVec 48 :=
  (0b01#48 <<< 46) ||| (idx.setWidth 48 <<< 40) ||| (arg.setWidth 48 <<< 8) ||| (crc.setWidth 48 <<< 1) ||| 1#48

/-- The bits a named row fixes are all but the checksum's. -/
theorem frame_masked (idx : BitVec 6) (arg : BitVec 32) (crc : BitVec 7) :
    frameBits idx arg crc &&& 0xFFFFFFFFFF01#48 = frameBits idx arg 0 := by
  unfold frameBits
  apply BitVec.eq_of_getLsbD_eq
  intro k hk
  interval_cases k <;> simp

/-- The bits the last row fixes are those of every frame. -/
theorem frame_fixed (idx : BitVec 6) (arg : BitVec 32) (crc : BitVec 7) :
    frameBits idx arg crc &&& 0xC00000000001#48 = 0x400000000001#48 := by
  unfold frameBits
  apply BitVec.eq_of_getLsbD_eq
  intro k hk
  interval_cases k <;> simp

/-- A frame's index and argument are read back from its bits. -/
theorem frameBits_inj {idx idx' : BitVec 6} {arg arg' : BitVec 32} (h : frameBits idx arg 0 = frameBits idx' arg' 0) :
    idx = idx' ∧ arg = arg' := by
  have hi (i : BitVec 6) (a : BitVec 32) : (frameBits i a 0).extractLsb' 40 6 = i := by
    unfold frameBits
    apply BitVec.eq_of_getLsbD_eq
    intro k hk
    interval_cases k <;> simp
  have ha (i : BitVec 6) (a : BitVec 32) : (frameBits i a 0).extractLsb' 8 32 = a := by
    unfold frameBits
    apply BitVec.eq_of_getLsbD_eq
    intro k hk
    interval_cases k <;> simp
  have h1 := congrArg (·.extractLsb' 40 6) h
  have h2 := congrArg (·.extractLsb' 8 32) h
  simp only [hi, ha] at h1 h2
  exact ⟨h1, h2⟩

/-- A frame matches a named row exactly when it has the row's index and argument. -/
theorem frame_row (idx : BitVec 6) (arg : BitVec 32) (crc : BitVec 7) (i : BitVec 6) (a : BitVec 32) :
    (frameBits idx arg crc &&& 0xFFFFFFFFFF01#48 == frameBits i a 0) = ((idx, arg) == (i, a)) := by
  rw [frame_masked, Bool.eq_iff_iff, beq_iff_eq, beq_iff_eq, Prod.mk.injEq]
  exact ⟨frameBits_inj, fun h => by rw [h.1, h.2]⟩

/-- The row of a frame, read off its index and argument. -/
theorem firstRow_frame (idx : BitVec 6) (arg : BitVec 32) (crc : BitVec 7) :
    (firstRow (encodeFrame idx arg crc)).map OpRow.mnemonic = some (mnemonic (frameRow idx arg crc)) := by
  have r (i : BitVec 6) (a : BitVec 32) (v : BitVec 48) (h : frameBits i a 0 = v) :
      (frameBits idx arg crc &&& 0xFFFFFFFFFF01#48 == v) = decide (idx = i ∧ arg = a) := by
    rw [← h, frame_row, Bool.eq_iff_iff]
    simp
  have last : (frameBits idx arg crc &&& 0xC00000000001#48 == 0x400000000001#48) = true := by
    simp [frame_fixed]
  have he : encodeFrame idx arg crc = .frame (frameBits idx arg crc) := rfl
  rw [he]
  simp only [firstRow, frameTable, List.find?_cons, r 0#6 0#32 _ (by decide : frameBits 0 0 0 = BitVec.ofNat 48 0x400000000001),
    r 8#6 0x155#32 _ (by decide : frameBits 8 0x155 0 = BitVec.ofNat 48 0x480000015501),
    r 9#6 0#32 _ (by decide : frameBits 9 0 0 = BitVec.ofNat 48 0x490000000001),
    r 55#6 0#32 _ (by decide : frameBits 55 0 0 = BitVec.ofNat 48 0x770000000001),
    r 41#6 0#32 _ (by decide : frameBits 41 0 0 = BitVec.ofNat 48 0x690000000001),
    r 41#6 0x40000000#32 _ (by decide : frameBits 41 0x40000000 0 = BitVec.ofNat 48 0x694000000001),
    r 58#6 0#32 _ (by decide : frameBits 58 0 0 = BitVec.ofNat 48 0x7A0000000001),
    r 59#6 1#32 _ (by decide : frameBits 59 1 0 = BitVec.ofNat 48 0x7B0000000101),
    r 59#6 0#32 _ (by decide : frameBits 59 0 0 = BitVec.ofNat 48 0x7B0000000001), last]
  unfold frameRow
  split_ifs with h1 h2 h3 h4 h5 h6 h7 h8 h9
  case neg => simp only [h1, h2, h3, h4, h5, h6, h7, h8, h9, decide_false, Option.map_some, mnemonic]
  all_goals
    obtain ⟨rfl, rfl⟩ := ‹_ ∧ _›
    rfl

/-! ## The family, one lemma per constructor -/

theorem TableRow.nop (v : BitVec 2) (i : BitVec 6) (a : BitVec 32) : TableRow.Statement (.nop v i a) := by
  intro _; simp [encode, encodeRequest, firstRow_request, reservedClear, mnemonic]

theorem TableRow.frame (v : BitVec 2) (i : BitVec 6) (a : BitVec 32) : TableRow.Statement (.frame v i a) := by
  intro _; simp [encode, encodeRequest, firstRow_request, reservedClear, mnemonic]

theorem TableRow.cmdR1 (v : BitVec 2) (i : BitVec 6) (a : BitVec 32) : TableRow.Statement (.cmdR1 v i a) := by
  intro _; simp [encode, encodeRequest, firstRow_request, reservedClear, mnemonic]

theorem TableRow.cmdR3 (v : BitVec 2) (i : BitVec 6) (a : BitVec 32) : TableRow.Statement (.cmdR3 v i a) := by
  intro _; simp [encode, encodeRequest, firstRow_request, reservedClear, mnemonic]

theorem TableRow.cmdR7 (v : BitVec 2) (i : BitVec 6) (a : BitVec 32) : TableRow.Statement (.cmdR7 v i a) := by
  intro _; simp [encode, encodeRequest, firstRow_request, reservedClear, mnemonic]

theorem TableRow.csdDecode (v : BitVec 2) (i : BitVec 6) (a : BitVec 32) : TableRow.Statement (.csdDecode v i a) := by
  intro _; simp [encode, encodeRequest, firstRow_request, reservedClear, mnemonic]

theorem TableRow.reservedOp67 (w : Word) : TableRow.Statement (.reservedOp67 w) := by
  intro h
  rcases (by simpa [Instr.wf] using h : reqOp w = 6#4 ∨ reqOp w = 7#4) with h | h <;>
    simp [encode, firstRow_request, h, mnemonic]

theorem TableRow.reservedOp8F (w : Word) : TableRow.Statement (.reservedOp8F w) := by
  intro h
  have h8 : 8 ≤ (reqOp w).toNat := by simpa [Instr.wf] using h
  have hne (k : BitVec 4) (hk : k.toNat < 8) : reqOp w ≠ k := by
    rintro rfl
    omega
  simp [encode, firstRow_request, h8, mnemonic, hne 0#4 (by decide), hne 1#4 (by decide), hne 2#4 (by decide),
    hne 3#4 (by decide), hne 4#4 (by decide), hne 5#4 (by decide), hne 6#4 (by decide), hne 7#4 (by decide)]

theorem TableRow.reservedOther (w : Word) : TableRow.Statement (.reservedOther w) := by
  intro h
  obtain ⟨h5, hr⟩ : (reqOp w).toNat ≤ 5 ∧ reservedClear w = false := by simpa [Instr.wf] using h
  have hne (k : BitVec 4) (hk : 5 < k.toNat) : reqOp w ≠ k := by
    rintro rfl
    omega
  have h8 : ¬ 8 ≤ (reqOp w).toNat := by omega
  simp [encode, firstRow_request, hr, h8, mnemonic, hne 6#4 (by decide), hne 7#4 (by decide)]

theorem TableRow.sdCmd0GoIdle (c : BitVec 7) : TableRow.Statement (.sdCmd0GoIdle c) :=
  fun _ => firstRow_frame 0#6 0#32 c

theorem TableRow.sdCmd8SendIfCond (c : BitVec 7) : TableRow.Statement (.sdCmd8SendIfCond c) :=
  fun _ => firstRow_frame 8#6 0x155#32 c

theorem TableRow.sdCmd9SendCsd (c : BitVec 7) : TableRow.Statement (.sdCmd9SendCsd c) :=
  fun _ => firstRow_frame 9#6 0#32 c

theorem TableRow.sdCmd55AppCmd (c : BitVec 7) : TableRow.Statement (.sdCmd55AppCmd c) :=
  fun _ => firstRow_frame 55#6 0#32 c

theorem TableRow.sdAcmd41SendOpCondV1 (c : BitVec 7) : TableRow.Statement (.sdAcmd41SendOpCondV1 c) :=
  fun _ => firstRow_frame 41#6 0#32 c

theorem TableRow.sdAcmd41SendOpCondV2 (c : BitVec 7) : TableRow.Statement (.sdAcmd41SendOpCondV2 c) :=
  fun _ => firstRow_frame 41#6 0x40000000#32 c

theorem TableRow.sdCmd58ReadOcr (c : BitVec 7) : TableRow.Statement (.sdCmd58ReadOcr c) :=
  fun _ => firstRow_frame 58#6 0#32 c

theorem TableRow.sdCmd59CrcOn (c : BitVec 7) : TableRow.Statement (.sdCmd59CrcOn c) :=
  fun _ => firstRow_frame 59#6 1#32 c

theorem TableRow.sdCmd59CrcOff (c : BitVec 7) : TableRow.Statement (.sdCmd59CrcOff c) :=
  fun _ => firstRow_frame 59#6 0#32 c

theorem TableRow.sdAnyFrame (i : BitVec 6) (a : BitVec 32) (c : BitVec 7) : TableRow.Statement (.sdAnyFrame i a c) := by
  intro h
  have hn : namedFrame i a = false := by
    simp only [Instr.wf, Bool.and_eq_true, Bool.not_eq_true'] at h
    exact h.2
  have hr : frameRow i a c = .sdAnyFrame i a c := by
    rcases frameRow_cases i a c with ⟨hi, ha, -⟩ | ⟨hi, ha, -⟩ | ⟨hi, ha, -⟩ | ⟨hi, ha, -⟩ | ⟨hi, ha, -⟩ | ⟨hi, ha, -⟩ |
        ⟨hi, ha, -⟩ | ⟨hi, ha, -⟩ | ⟨hi, ha, -⟩ | ⟨-, hf⟩
    all_goals first
      | exact hf
      | simp [hi, ha, namedFrame] at hn
  exact (firstRow_frame i a c).trans (by rw [hr])

end Sys2Proof.Laws
end

