-- ==== Sys2Proof/Laws/Step.lean ====
section
/-!
SUPPORT. The step, once: by the host's action it is an acceptance, the block's own move, a CSDBUF write, a read, or a reset.
-/

namespace Sys2Proof.Machine

/-- While the host waits and the block is busy, the step is the block's own move. -/
theorem step_of_hostWaits {s : State} (hw : hostWaits s.host = true) (hp : s.phase ≠ .idle) : step s = advance s := by
  unfold step hostStep
  cases h : s.host with
  | nil => rfl
  | cons a rest => cases a <;> simp_all [hostWaits, State.busy]

/-- An idle block accepts the request the host presents. -/
theorem step_of_request {s : State} {w : Word} {rest : List HostAction} (hp : s.phase = .idle)
    (hh : s.host = .request w :: rest) : step s = accept w { s with host := rest } := by
  simp [step, hostStep, hh, State.busy, hp]

/-- A busy block leaves the request with the host. -/
theorem step_of_pending {s : State} {w : Word} {rest : List HostAction} (hp : s.phase ≠ .idle)
    (hh : s.host = .request w :: rest) : step s = advance s := by
  simp [step, hostStep, hh, State.busy, hp]

/-- Everything one step can do. -/
theorem step_cases (s : State) :
    (s.host = [] ∧ step s = advance s) ∨
    (∃ rest, s.host = .idle :: rest ∧ step s = advance { s with host := rest }) ∨
    (∃ w rest, s.host = .request w :: rest ∧
      ((s.phase ≠ .idle ∧ step s = advance s) ∨ (s.phase = .idle ∧ step s = accept w { s with host := rest }))) ∨
    (∃ i b rest, s.host = .writeCsd i b :: rest ∧ step s = .next (writeCsd i b { s with host := rest })) ∨
    (∃ w i b rest, s.host = .requestWhileWriting w i b :: rest ∧
      ((s.phase ≠ .idle ∧ step s = .next (writeCsd i b { s with host := .request w :: rest })) ∨
       (s.phase = .idle ∧
        (step s = accept w (writeCsd i b { s with host := rest, draws := s.draws + 1 }) ∨
         step s = mapNext (writeCsd i b) (accept w { s with host := rest, draws := s.draws + 1 }))))) ∨
    (∃ r rest, s.host = .read r :: rest ∧ step s = .next (readReg r { s with host := rest })) ∨
    (∃ rest, s.host = .reset :: rest ∧ step s = .next (resetBlock { s with host := rest })) := by
  unfold step hostStep
  cases h : s.host with
  | nil => exact .inl ⟨rfl, rfl⟩
  | cons a rest =>
    right
    cases a with
    | idle => exact .inl ⟨rest, rfl, rfl⟩
    | request w =>
      right; left
      refine ⟨w, rest, rfl, ?_⟩
      by_cases hp : s.phase = .idle <;> simp [State.busy, hp]
    | writeCsd i b => exact .inr (.inr (.inl ⟨i, b, rest, rfl, rfl⟩))
    | requestWhileWriting w i b =>
      right; right; right; left
      refine ⟨w, i, b, rest, rfl, ?_⟩
      by_cases hp : s.phase = .idle
      · cases hd : Config.decodeSeesWrite s.draws <;> simp [State.busy, hp, acceptWhileWriting, hd]
      · simp [State.busy, hp]
    | read r => exact .inr (.inr (.inr (.inr (.inl ⟨r, rest, rfl, rfl⟩))))
    | reset => exact .inr (.inr (.inr (.inr (.inr ⟨rest, rfl, rfl⟩))))

/-- What no transaction of the block touches. -/
structure Untouched (s t : State) : Prop where
  params : t.params = s.params
  req : t.req = s.req
  csdbuf : t.csdbuf = s.csdbuf
  lastOp : t.lastOp = s.lastOp
  frame : t.frame = s.frame
  geom : t.geom = s.geom
  host : t.host = s.host
  readOut : t.readOut = s.readOut
  draws : t.draws = s.draws

/-- One transaction: the outstanding one is made, one answer is taken, and STATUS moves only if the operation ends. -/
structure OneTransaction (s t : State) : Prop where
  busy : s.phase ≠ .idle
  wire : t.wire = outstanding s ++ s.wire
  link : t.link = s.link.tail
  answered : s.link ≠ []
  status : (t.phase ≠ .idle ∧ t.status = s.status ∧ t.xstat = s.xstat) ∨
    (t.phase = .idle ∧ ((t.xstat ≠ 0 ∧ t.status = s.params.stError) ∨
      (t.xstat = s.xstat ∧ (t.status = s.params.stOk ∨ t.status = s.params.stTimeout))))

/-- The block's own move changes nothing, or is one transaction; either way it leaves the rest untouched. -/
theorem advance_cases (s : State) :
    ∃ t, advance s = .next t ∧ Untouched s t ∧ (t = s ∨ OneTransaction s t) := by
  refine ⟨_, advance_eq s, ?_⟩
  have same : Untouched s s ∧ (s = s ∨ OneTransaction s s) := ⟨⟨rfl, rfl, rfl, rfl, rfl, rfl, rfl, rfl, rfl⟩, .inl rfl⟩
  cases hp : s.phase with
  | idle => exact same
  | tx =>
    rcases transmit_cases s.frame s with ⟨-, h⟩ | ⟨a, rest, hl, ⟨ha, h⟩ | ⟨-, h⟩⟩ <;> simp only [h]
    · exact ⟨same.1, .inl trivial⟩
    all_goals
      refine ⟨⟨rfl, rfl, rfl, rfl, rfl, rfl, rfl, rfl, rfl⟩, .inr ⟨by simp [hp], ?_, by simp [hl], by simp [hl], ?_⟩⟩ <;>
        simp_all [outstanding]
  | rxStatus =>
    rcases receiveStatus_cases s with ⟨-, h⟩ | ⟨a, rest, hl, ⟨ha, h⟩ | ⟨-, -, h⟩ | ⟨-, -, h⟩⟩ <;> simp only [h]
    · exact ⟨same.1, .inl trivial⟩
    · refine ⟨⟨rfl, rfl, rfl, rfl, rfl, rfl, rfl, rfl, rfl⟩, .inr ⟨by simp [hp], ?_, by simp [hl], by simp [hl], ?_⟩⟩ <;>
        simp_all [outstanding]
    · rcases countFiller_cases (answered .receive rest s) with ⟨-, h⟩ | ⟨-, h⟩ <;> simp only [h] <;>
        refine ⟨⟨rfl, rfl, rfl, rfl, rfl, rfl, rfl, rfl, rfl⟩, .inr ⟨by simp [hp], ?_, by simp [hl], by simp [hl], ?_⟩⟩ <;>
        simp_all [outstanding]
    · rcases storeStatusByte_cases a.byte (answered .receive rest s) with ⟨-, h⟩ | ⟨-, h⟩ <;> simp only [h] <;>
        refine ⟨⟨rfl, rfl, rfl, rfl, rfl, rfl, rfl, rfl, rfl⟩, .inr ⟨by simp [hp], ?_, by simp [hl], by simp [hl], ?_⟩⟩ <;>
        simp_all [outstanding]
  | rxTail =>
    rcases receiveTail_cases s with ⟨-, h⟩ | ⟨a, rest, hl, ⟨ha, h⟩ | ⟨-, h⟩⟩ <;> simp only [h]
    · exact ⟨same.1, .inl trivial⟩
    · refine ⟨⟨rfl, rfl, rfl, rfl, rfl, rfl, rfl, rfl, rfl⟩, .inr ⟨by simp [hp], ?_, by simp [hl], by simp [hl], ?_⟩⟩ <;>
        simp_all [outstanding]
    · rcases storeTailByte_cases a.byte (answered .receive rest s) with ⟨-, h⟩ | ⟨-, h⟩ <;> simp only [h] <;>
        refine ⟨⟨rfl, rfl, rfl, rfl, rfl, rfl, rfl, rfl, rfl⟩, .inr ⟨by simp [hp], ?_, by simp [hl], by simp [hl], ?_⟩⟩ <;>
        simp_all [outstanding]

/-- `runSteps` is the host's `run` of this machine. -/
theorem runSteps_eq_core (n : Nat) (s : State) : runSteps n s = Sys2Proof.core.run n s := by
  induction n generalizing s with
  | zero => rfl
  | succ n ih =>
    have hc : Sys2Proof.core.step s = step s := rfl
    simp only [runSteps, Host.Core.run]
    split <;> rename_i h <;> simp [hc, h, ih] <;> rfl

/-- A step that answers a next state is peeled off a run. -/
theorem runSteps_succ {s t : State} (n : Nat) (h : step s = .next t) : runSteps (n + 1) s = runSteps n t := by
  simp [runSteps, h]

/-- Runs compose. -/
theorem runSteps_add {s t : State} (m n : Nat) (h : runSteps m s = .next t) : runSteps (m + n) s = runSteps n t := by
  induction m generalizing s with
  | zero =>
    obtain rfl : s = t := by simpa [runSteps] using h
    simp
  | succ m ih =>
    cases hs : step s with
    | next u => rw [runSteps_succ m hs] at h; rw [Nat.add_right_comm, runSteps_succ _ hs, ih h]
    | fault r => simp [runSteps, hs] at h
    | refused r => simp [runSteps, hs] at h

end Sys2Proof.Machine
end

