-- ==== Sys2Proof/Tests/Slice0.lean ====
section
/-!
SUPPORT. The model's own tests. Expected words, frames, registers and fields are those of spec/95_test_vectors.md (the vector's
name stands in the test's comment), spec/30_encoding.md R83, R87 or spec/opcode_table.json. The last part gives, for each statement
with hypotheses, a concrete state and operands that meet them.
-/

namespace Sys2Proof.Tests

open Machine

set_option maxRecDepth 20000

/-! ## Decoding: one word per row, written out from the spec's encoding -/

theorem test_decode_nop : decode (.request 0x0000000000003F30#64) = .ok (.nop 3 63 0) := by decide  -- N-2
theorem test_decode_frame : decode (.request 0xFFFFFFFF00003F01#64) = .ok (.frame 0 63 0xFFFFFFFF) := by decide  -- F-2
theorem test_decode_cmdR1 : decode (.request 0x4000000000002902#64) = .ok (.cmdR1 0 41 0x40000000) := by decide  -- P2 step 6
theorem test_decode_cmdR3 : decode (.request 0x0000000000003A03#64) = .ok (.cmdR3 0 58 0) := by decide  -- R3-1
theorem test_decode_cmdR7 : decode (.request 0x000001AA00000804#64) = .ok (.cmdR7 0 8 0x1AA) := by decide  -- R7-6
theorem test_decode_csdDecode : decode (.request 0x0000000000000035#64) = .ok (.csdDecode 3 0 0) := by decide  -- CSD-10
theorem test_decode_reservedOp67 : decode (.request 0x0000000000000006#64) = .ok (.reservedOp67 6) := by decide  -- X-1
theorem test_decode_reservedOp8F : decode (.request 0x000000000000000F#64) = .ok (.reservedOp8F 15) := by decide  -- X-2
theorem test_decode_reservedOther :  -- X-3, X-4
    decode (.request 0x0000000000000040#64) = .ok (.reservedOther 0x40) ∧
      decode (.request 0x0000000000004002#64) = .ok (.reservedOther 0x4002) := by decide
/-- A reserved OP stands before the catch-all row even with a reserved bit set (the order of the opcode table). -/
theorem test_decode_reserved_order : decode (.request 0x0000000080000007#64) = .ok (.reservedOp67 0x80000007) := by decide

theorem test_decode_cmd0 : decode (.frame 0x400000000095#48) = .ok (.sdCmd0GoIdle 0x4A) := by decide
theorem test_decode_cmd8 : decode (.frame 0x480000015575#48) = .ok (.sdCmd8SendIfCond 0x3A) := by decide
theorem test_decode_cmd9 : decode (.frame 0x4900000000AF#48) = .ok (.sdCmd9SendCsd 0x57) := by decide
theorem test_decode_cmd55 : decode (.frame 0x770000000065#48) = .ok (.sdCmd55AppCmd 0x32) := by decide
theorem test_decode_acmd41v1 : decode (.frame 0x6900000000E5#48) = .ok (.sdAcmd41SendOpCondV1 0x72) := by decide
theorem test_decode_acmd41v2 : decode (.frame 0x694000000077#48) = .ok (.sdAcmd41SendOpCondV2 0x3B) := by decide
theorem test_decode_cmd58 : decode (.frame 0x7A00000000FD#48) = .ok (.sdCmd58ReadOcr 0x7E) := by decide
theorem test_decode_cmd59on : decode (.frame 0x7B0000000183#48) = .ok (.sdCmd59CrcOn 0x41) := by decide
theorem test_decode_cmd59off : decode (.frame 0x7B0000000091#48) = .ok (.sdCmd59CrcOff 0x48) := by decide
theorem test_decode_any_frame : decode (.frame 0x48000001AA87#48) = .ok (.sdAnyFrame 8 0x1AA 0x43) := by decide

/-- 48 bits with a start or transmission bit other than `0b01`, or no stop bit, are no frame (R76). -/
theorem test_decode_rejects :
    decode (.frame 0x000000000095#48) = .error .badStartBits ∧ decode (.frame 0xC00000000095#48) = .error .badStartBits ∧
      decode (.frame 0x400000000094#48) = .error .badStopBit := by decide

theorem test_decodeTableWord :
    decodeTableWord 64 0x2 = some (.cmdR1 0 0 0) ∧ decodeTableWord 48 0x400000000095 = some (.sdCmd0GoIdle 0x4A) ∧
      decodeTableWord 48 0 = none := by decide

/-! ## Well-formedness refuses an ill-formed instruction of each row that has a check -/

theorem smoke_reservedOp67 : (Instr.reservedOp67 0x8).wf = false ∧ (Instr.reservedOp67 0x7).wf = true := by decide
theorem smoke_reservedOp8F : (Instr.reservedOp8F 0x7).wf = false ∧ (Instr.reservedOp8F 0x8).wf = true := by decide
theorem smoke_reservedOther :
    (Instr.reservedOther 0x5).wf = false ∧ (Instr.reservedOther 0x46).wf = false ∧ (Instr.reservedOther 0x45).wf = true := by
  decide
theorem smoke_frames_need_their_crc :
    [Instr.sdCmd0GoIdle 0, .sdCmd8SendIfCond 0, .sdCmd9SendCsd 0, .sdCmd55AppCmd 0, .sdAcmd41SendOpCondV1 0,
      .sdAcmd41SendOpCondV2 0, .sdCmd58ReadOcr 0, .sdCmd59CrcOn 0, .sdCmd59CrcOff 0, .sdAnyFrame 1 0 0].all
      (fun i => !i.wf) = true := by decide
theorem smoke_named_frame_is_no_other : (Instr.sdAnyFrame 0 0 0x4A).wf = false ∧ (Instr.sdAnyFrame 1 0 0x7C).wf = true := by
  decide

/-! ## The checksum and frames -/

/-- The vectors of section 1.2: index, argument, frame. -/
theorem test_crc_vectors :
    [(0#6, 0x00000000#32, 0x400000000095#48), (0, 0x00000001, 0x400000000187), (0, 0x80000000, 0x4080000000A3),
      (0, 0xFFFFFFFF, 0x40FFFFFFFFBF), (1, 0, 0x4100000000F9), (8, 0x155, 0x480000015575), (8, 0x1AA, 0x48000001AA87),
      (12, 0, 0x4C0000000061), (16, 0x200, 0x500000020015), (17, 0x1234, 0x510000123415), (63, 0, 0x7F0000000033),
      (63, 0xFFFFFFFF, 0x7FFFFFFFFF19)].all (fun v => frameToBits (buildFrame v.1 v.2.1) == v.2.2) = true := by decide

/-- The CRC byte of each named row (R83, "crc_byte" of the opcode table). -/
theorem test_crc_bytes :
    [(0#6, 0x00000000#32, 0x95#8), (8, 0x155, 0x75), (9, 0, 0xAF), (55, 0, 0x65), (41, 0, 0xE5), (41, 0x40000000, 0x77),
      (58, 0, 0xFD), (59, 1, 0x83), (59, 0, 0x91)].all (fun v => (buildFrame v.1 v.2.1)[5] == v.2.2) = true := by decide

/-- Assembler form of R86. -/
theorem test_spelling :
    spell (expandPseudo .sendIfCond) = some "CMD.R7 8, 0x00000155" ∧
      spell (expandPseudo .sendOpCondV2) = some "CMD.R1 41, 0x40000000" ∧ spell (.csdDecode 2 0 0) = some "CSD.DECODE 2" := by
  decide

/-! ## One step -/

/-- The reset block with a host, a link, and registers as the test sets them. -/
def block (host : List HostAction) (link : List LinkAnswer) : State :=
  { State.reset with host := host, link := link }

/-- The block in the middle of the CMD.Rx of word `w`, with `n` fillers and the bytes `bs` stored. -/
def running (w : Word) (p : Phase) (n : Nat) (bs : List Byte) (link : List LinkAnswer) : State :=
  { State.reset with
    phase := p, req := w, lastOp := reqOp w, frame := buildFrame (reqIdx w) (reqArg w)
    resp := respOf bs, rcount := BitVec.ofNat 3 bs.length, filler := n, link := link }

/-- What a step leaves satisfies `p`. -/
def after (o : Host.Outcome State Fault Refusal) (p : State → Bool) : Bool :=
  match o with
  | .next t => p t
  | .fault _ => false
  | .refused _ => false

-- N-2
theorem test_nop :
    after (step (block [.request 0x3F30] [])) (fun t => t.status == 0 && t.req == 0x3F30 && t.lastOp == 0 && !t.busy)
      = true := by decide

-- F-1
theorem test_frame :
    after (step (block [.request 0x0000015500000801] []))
      (fun t => t.frame == #v[0x48, 0x00, 0x00, 0x01, 0x55, 0x75] && t.lastOp == 1 && t.rcount == 0 && t.wire == [])
      = true := by decide

-- X-1
theorem test_reservedOp67 :
    after (step (block [.request 6] [])) (fun t => t.status == 1 && t.lastOp == 6 && t.req == 6 && t.frame == .replicate 6 0)
      = true := by decide

-- X-2
theorem test_reservedOp8F :
    after (step (block [.request 0xF] [])) (fun t => t.status == 1 && t.lastOp == 0xF && !t.busy) = true := by decide

-- X-6: a refusal does not clear the geometry
theorem test_reservedOther :
    after (step { block [.request 0x80000005] [] with geom := decodeV2 (.replicate 16 0) })
      (fun t => t.status == 1 && t.geom.valid && t.geom.capacity == 512) = true := by decide

-- R1-11: every CMD.Rx presets RESP[1..4]
theorem test_cmdR1_accept :
    after (step { block [.request 2] [] with resp := #v[0x01, 0xC0, 0xFF, 0x80, 0x00], rcount := 5, filler := 3 })
      (fun t => t.resp == .replicate 5 0xFF && t.rcount == 0 && t.filler == 0 && t.phase == .tx
        && t.frame == #v[0x40, 0x00, 0x00, 0x00, 0x00, 0x95]) = true := by decide

-- R1-4: the ninth filler byte is the timeout
theorem test_cmdR1_timeout :
    after (step (running 2 .rxStatus 8 [] [arrives 0xFF]))
      (fun t => t.status == 2 && t.xstat == 0 && t.filler == 9 && t.rcount == 0 && !t.busy) = true := by decide

-- R1-8: a failed Receive in the place of the ninth filler
theorem test_receive_fails_first :
    after (step (running 2 .rxStatus 8 [] [{ byte := 0xFF, status := 1 }]))
      (fun t => t.status == 1 && t.xstat == 1 && t.filler == 8) = true := by decide

-- R1-7: 0x80 is filler, 0x7F a status byte
theorem test_status_byte :
    after (step (running 2 .rxStatus 0 [] [arrives 0x80])) (fun t => t.filler == 1 && t.busy) = true ∧
      after (step (running 2 .rxStatus 1 [] [arrives 0x7F]))
        (fun t => t.status == 0 && t.rcount == 1 && t.resp == #v[0x7F, 0xFF, 0xFF, 0xFF, 0xFF] && !t.busy) = true := by decide

-- R3-10: the status byte of a CMD.R3 starts the trailing bytes, even with ILLEGAL_CMD set
theorem test_cmdR3_status :
    after (step (running 0x3A03 .rxStatus 0 [] [arrives 0x05])) (fun t => t.phase == .rxTail && t.rcount == 1) = true := by
  decide

-- R3-1: the last trailing byte
theorem test_cmdR3_last :
    after (step (running 0x3A03 .rxTail 1 [0x01, 0xC0, 0xFF, 0x80] [arrives 0x00]))
      (fun t => t.status == 0 && t.rcount == 5 && t.resp == #v[0x01, 0xC0, 0xFF, 0x80, 0x00] && ocrUsable t
        && ocrCcs t.resp && ocrBusyRaw t.resp && ocrVoltOk t.resp) = true := by decide

-- R7-7: the transport fails at the fourth trailing byte
theorem test_cmdR7_tail_fails :
    after (step (running 0x0000015500000804 .rxTail 0 [0x01, 0x00, 0x00, 0x01] [{ byte := 0x55, status := 9 }]))
      (fun t => t.status == 1 && t.xstat == 9 && t.rcount == 4 && t.resp == #v[0x01, 0x00, 0x00, 0x01, 0xFF]) = true := by
  decide

-- R7-1
theorem test_cmdR7_last :
    after (step (running 0x0000015500000804 .rxTail 1 [0x01, 0x00, 0x00, 0x01] [arrives 0x55]))
      (fun t => t.status == 0 && t.rcount == 5 && r7Usable t && r7Ok t.resp && r7Echo t.resp == 0x55) = true := by decide

-- R7-2 to R7-5, R3-3 to R3-8
theorem test_response_fields :
    r7Ok #v[0x01, 0x00, 0x00, 0x01, 0xAA] = false ∧ r7Ok #v[0x01, 0x00, 0x00, 0x02, 0x55] = false ∧
      r7Ok #v[0x01, 0xFF, 0xFF, 0xF1, 0x55] = true ∧ r1IllegalCmd #v[0x05, 0xFF, 0xFF, 0xFF, 0xFF] = true ∧
      ocrVoltOk #v[0x01, 0x00, 0x1E, 0x80, 0x00] = false ∧ ocrVoltOk #v[0x01, 0x00, 0x1F, 0x00, 0x00] = false ∧
      ocrVoltOk #v[0x01, 0x00, 0x1F, 0x80, 0x00] = true ∧ ocrCcs #v[0x00, 0x82, 0xFF, 0x80, 0x00] = false ∧
      ocrCcs #v[0x00, 0x40, 0xFF, 0x80, 0x00] = true := by decide

/-- CSD-2's image. -/
def imageV1 : Bytes 16 :=
  #v[0x00, 0x26, 0x00, 0x32, 0x5B, 0x59, 0x00, 0xFF, 0xC0, 0x01, 0x00, 0x00, 0x02, 0x40, 0x00, 0x01]

/-- CSD-4's image. -/
def imageV2 : Bytes 16 :=
  #v[0x40, 0x0E, 0x00, 0x32, 0x5B, 0x59, 0x00, 0x00, 0x03, 0xE8, 0x00, 0x00, 0x02, 0x40, 0x00, 0x01]

-- CSD-2
theorem test_csd_v1 :
    after (step { block [.request 0x15] [] with csdbuf := imageV1 })
      (fun t => t.status == 0 && t.geom == { valid := true, ver := 1, capacity := 8388608, blLen := 9, blockSize := 512
                                             ccc := 0x5B5, tranSpeedRaw := 0x32, speedKbps := 25000, speedValid := true
                                             partialWr := false, cSize := 1023, cSizeMult := 2 }) = true := by decide

-- CSD-4, CSD-11, CSD-13, CSD-14
theorem test_csd_v2 :
    after (step { block [.request 0x25] [] with csdbuf := imageV2 })
      (fun t => t.status == 0 && t.geom == { valid := true, ver := 2, capacity := 512512, blLen := 9, blockSize := 512
                                             ccc := 0x5B5, tranSpeedRaw := 0x32, speedKbps := 25000, speedValid := true
                                             partialWr := false, cSize := 1000, cSizeMult := 0 }) = true ∧
      (decodeV2 imageV1).capacity = 2139096064 ∧
      (decodeV1 #v[0, 0, 0, 0, 0, 0x0B, 0x03, 0xFF, 0xC0, 0x03, 0x80, 0, 0, 0, 0, 0]).capacity = 4294967296 ∧
      (decodeV2 #v[0, 0, 0, 0, 0, 0, 0, 0, 0, 0, 0, 0, 0, 0x20, 0, 0]).partialWr = true := by decide

-- CSD-8, CSD-8b: the largest capacities
theorem test_csd_limits :
    (decodeV1 (.replicate 16 0xFF)).capacity = 68719476736 ∧ (decodeV2 (.replicate 16 0xFF)).capacity = 2147483648 := by decide

-- CSD-9, CSD-10: after a good decode, version 0 or 3 clears the geometry
theorem test_csd_no_version :
    after (step { block [.request 0x05] [] with csdbuf := imageV2, geom := decodeV2 imageV2 })
        (fun t => t.status == 1 && t.geom == .zero && t.csdbuf == imageV2) = true ∧
      after (step { block [.request 0x35] [] with geom := decodeV2 imageV2 }) (fun t => t.status == 1 && t.geom == .zero)
        = true := by decide

-- the transfer-speed codes of section 2.5
theorem test_speed :
    [(0x32#8, 25000#20, true), (0x5A, 50000, true), (0x0B, 100000, true), (0x7B, 800000, true), (0x30, 250, true),
      (0xB2, 25000, true), (0x02, 0, false), (0x34, 0, false), (0x07, 0, false)].all
      (fun v => speedKbps v.1 == v.2.1 && speedValid v.1 == v.2.2) = true := by decide

-- R1-5: the Transmit fails; then each frame row's bytes on the wire
theorem test_transmit_fails :
    after (exec (.sdCmd0GoIdle 0x4A) (running 2 .tx 0 [] [{ byte := 0, status := 3 }]))
      (fun t => t.status == 1 && t.xstat == 3 && t.rcount == 0 && t.filler == 0 && t.resp == .replicate 5 0xFF && !t.busy)
      = true := by decide

theorem test_frames_on_the_wire :
    [(Instr.sdCmd0GoIdle 0x4A, 0x400000000095#48), (.sdCmd8SendIfCond 0x3A, 0x480000015575),
      (.sdCmd9SendCsd 0x57, 0x4900000000AF), (.sdCmd55AppCmd 0x32, 0x770000000065), (.sdAcmd41SendOpCondV1 0x72, 0x6900000000E5),
      (.sdAcmd41SendOpCondV2 0x3B, 0x694000000077), (.sdCmd58ReadOcr 0x7E, 0x7A00000000FD),
      (.sdCmd59CrcOn 0x41, 0x7B0000000183), (.sdCmd59CrcOff 0x48, 0x7B0000000091),
      (.sdAnyFrame 17 0 0x2A, 0x510000000055)].all
      (fun v => after (exec v.1 (running 2 .tx 0 [] [arrives 0]))
        (fun t => t.wire == [.transmit (frameOfBits v.2)] && t.phase == .rxStatus)) = true := by decide

/-- The host's word is fetched and run as the first instruction after reset. -/
theorem test_withFetchWord :
    after (step (State.reset.withFetchWord 64 0x0000015500000801))
        (fun t => t.frame == #v[0x48, 0x00, 0x00, 0x01, 0x55, 0x75]) = true ∧
      after (step { State.reset.withFetchWord 48 0x400000000095 with link := [arrives 0] })
        (fun t => t.wire == [.transmit #v[0x40, 0x00, 0x00, 0x00, 0x00, 0x95]]) = true := by decide

/-- Reads: idle, a register's value; busy, BUSY itself settles. A write to CSDBUF, and reset in the middle of an operation. -/
theorem test_host_port :
    after (step { block [.read (.csdbuf 3)] [] with csdbuf := imageV2 }) (fun t => t.readOut == 0x32 && t.draws == 0) = true ∧
      after (step { running 2 .rxStatus 0 [] [] with host := [.read .busy] }) (fun t => t.readOut == 1 && t.draws == 0) = true ∧
      after (step (block [.writeCsd 15 0xAB] [])) (fun t => t.csdbuf[15] == 0xAB && t.csdbuf[14] == 0) = true ∧
      after (step { running 2 .rxStatus 2 [] [arrives 0x01, arrives 0x00] with host := [.reset] })
        (fun t => !t.busy && t.req == 0 && t.filler == 0 && t.frame == .replicate 6 0 && t.link == [arrives 0x00]) = true := by
  decide

/-! ## Witnesses: a state and operands that meet the hypotheses of each statement, one per clause -/

/-- One well-formed instruction per row. -/
theorem witness_EveryInstructionDecodesFromItsCode :
    [Instr.nop 3 63 0xFFFFFFFF, .frame 3 63 0xFFFFFFFF, .cmdR1 0 0 0, .cmdR3 0 58 0, .cmdR7 0 8 0x155, .csdDecode 3 63 1,
      .reservedOp67 0xFFFFFFFFFFFFFFF7, .reservedOp8F 0xFFFFFFFFFFFFFFFF, .reservedOther 0x45, .sdCmd0GoIdle 0x4A,
      .sdCmd8SendIfCond 0x3A, .sdCmd9SendCsd 0x57, .sdCmd55AppCmd 0x32, .sdAcmd41SendOpCondV1 0x72, .sdAcmd41SendOpCondV2 0x3B,
      .sdCmd58ReadOcr 0x7E, .sdCmd59CrcOn 0x41, .sdCmd59CrcOff 0x48, .sdAnyFrame 63 0xFFFFFFFF 0x0C].all Instr.wf = true := by
  decide

theorem witness_NopOnlyFinishes :
    let s := block [.request 0xFFFFFFFF00003F30] []
    reqOp 0xFFFFFFFF00003F30 = 0 ∧ reservedClear 0xFFFFFFFF00003F30 = true ∧ s.phase = .idle ∧
      s.host = .request 0xFFFFFFFF00003F30 :: [] ∧
    (let t := block [.request 0x40] []
     reqOp 0x40 = 0 ∧ reservedClear 0x40 = false ∧ t.phase = .idle ∧ t.host = .request 0x40 :: []) := by decide

theorem witness_FrameBuildsWithoutSending :
    let s := block [.request 0xFFFFFFFF00003F01] []
    reqOp 0xFFFFFFFF00003F01 = 1 ∧ reservedClear 0xFFFFFFFF00003F01 = true ∧ s.phase = .idle ∧
      s.host = .request 0xFFFFFFFF00003F01 :: [] := by decide

/-- Refused at each end of its three reasons; not refused beside them. -/
theorem witness_RefusedRequestWritesFourRegisters :
    [6, 0xF, 0x40, 0x80, 0x4000, 0x80000000].all
      (fun w => decide ((block [.request w] []).phase = .idle ∧ (6 ≤ (reqOp w).toNat ∨ reqRsv0 w ≠ 0 ∨ reqRsv1 w ≠ 0))) = true ∧
    [0, 5, 0xFFFFFFFF00003F35].all
      (fun w => decide ((block [.request w] []).phase = .idle ∧ ¬ (6 ≤ (reqOp w).toNat ∨ reqRsv0 w ≠ 0 ∨ reqRsv1 w ≠ 0)))
      = true := by decide

theorem witness_CommandsPresetAndBuildTheirFrame :
    [Instr.cmdR1 3 63 1, .cmdR3 3 63 1, .cmdR7 3 63 1].all
      (fun c => decide (c = .cmdR1 3 63 1 ∨ c = .cmdR3 3 63 1 ∨ c = .cmdR7 3 63 1)) = true := by decide

theorem witness_CmdR7BehavesLikeCmdR3 :
    State.reset.phase = .idle ∧ reservedClear 0x15500000803 = true ∧ reservedClear 0x15500000804 = true ∧
      reqOp 0x15500000803 = 3 ∧ reqOp 0x15500000804 = 4 ∧ reqIdx 0x15500000803 = reqIdx 0x15500000804 ∧
      reqArg 0x15500000803 = reqArg 0x15500000804 ∧
      ([HostAction.idle, .idle].all fun a => match a with | .idle => true | _ => false) = true := by decide

theorem witness_FrameRowsTransmitTheirBytes :
    (Instr.sdAnyFrame 63 0xFFFFFFFF 0, 63, 0xFFFFFFFF) ∈ frameRows 63 0xFFFFFFFF 0 ∧
      (Instr.sdCmd0GoIdle 0, 0, 0) ∈ frameRows 63 0xFFFFFFFF 0 ∧
      (block [] [arrives 0]).link = { byte := 0, status := 0 } :: [] := by decide

/-- One answer with a nonzero status, in each phase that has a transaction. -/
theorem witness_FailedTransactionEndsTheOperation :
    [Phase.tx, .rxStatus, .rxTail].all (fun p =>
      let s := running 0x3A03 p 0 [] [{ byte := 0, status := 1 }]
      decide (s.phase ≠ .idle ∧ hostWaits s.host = true ∧ s.link = { byte := 0, status := 1 } :: [])) = true := by decide

/-- The last filler tolerated, and the one past it. -/
theorem witness_FillerByteIsCountedUpToTheBound :
    let s := running 2 .rxStatus 7 [] [arrives 0x80]
    let t := running 2 .rxStatus 8 [] [arrives 0xFF]
    (s.phase = .rxStatus ∧ hostWaits s.host = true ∧ s.link = [arrives 0x80] ∧ (0x80#8).getLsbD 7 = true ∧
      s.filler < s.params.rFillerMax) ∧
    (t.phase = .rxStatus ∧ hostWaits t.host = true ∧ t.link = [arrives 0xFF] ∧ (0xFF#8).getLsbD 7 = true ∧
      t.params.rFillerMax ≤ t.filler) := by decide

theorem witness_StatusByteIsStored :
    [2, 3, 4].all (fun w =>
      let s := running w .rxStatus 0 [] [arrives 0x7F]
      decide (s.phase = .rxStatus ∧ hostWaits s.host = true ∧ s.link = [arrives 0x7F] ∧ (0x7F#8).getLsbD 7 = false ∧
        (reqOp s.req = 2 ∨ reqOp s.req = 3 ∨ reqOp s.req = 4))) = true := by decide

/-- The first and the last trailing byte. -/
theorem witness_TrailingBytesAreStoredUnconditionally :
    [[0x05], [0x05, 0xFF, 0xFF, 0xFF]].all (fun bs =>
      let s := running 0x3A03 .rxTail 0 bs [arrives 0xFF]
      decide (s.phase = .rxTail ∧ hostWaits s.host = true ∧ s.link = [arrives 0xFF] ∧ reqOp s.req = 3 ∧
        1 ≤ bs.length ∧ bs.length < 5 ∧ s.rcount = BitVec.ofNat 3 bs.length)) = true := by decide

/-- A CMD.R1 with as many fillers as are tolerated (R1-3), and a CMD.R3 with none (R3-2). -/
theorem witness_CommandCompletes :
    (let fs := List.replicate 8 (0xFF#8)
     let s := block [.request 2] (arrives 0 :: (fs.map arrives ++ arrives 0 :: ([].map arrives ++ [])))
     s.phase = .idle ∧ isCommand 2 = true ∧ s.host = [.request 2] ∧ hostWaits [] = true ∧
      (∀ x ∈ fs, x.getLsbD 7 = true) ∧ fs.length ≤ s.params.rFillerMax ∧ (0#8).getLsbD 7 = false ∧
      ([] : List Byte).length = tailCount (reqOp 2)) ∧
    (let tail := [0x00#8, 0xFF, 0x80, 0x00]
     let s := block [.request 0x3A03] (arrives 0 :: ([].map arrives ++ arrives 0 :: (tail.map arrives ++ [])))
     s.phase = .idle ∧ isCommand 0x3A03 = true ∧ s.host = [.request 0x3A03] ∧ ([] : List Byte).length ≤ s.params.rFillerMax ∧
      tail.length = tailCount (reqOp 0x3A03)) := by decide

theorem witness_CommandTimesOut :
    let fs := List.replicate 9 (0xFF#8)
    let s := block [.request 2] (arrives 0 :: (fs.map arrives ++ []))
    s.phase = .idle ∧ isCommand 2 = true ∧ s.host = [.request 2] ∧ hostWaits [] = true ∧
      (∀ x ∈ fs, x.getLsbD 7 = true) ∧ fs.length = s.params.rFillerMax + 1 := by decide

theorem witness_CommandFailsInTransmit :
    let a : LinkAnswer := { byte := 0, status := 3 }
    let s := block [.request 2] [a]
    s.phase = .idle ∧ isCommand 2 = true ∧ s.host = [.request 2] ∧ hostWaits [] = true ∧ a.status ≠ 0 ∧ s.link = [a] := by
  decide

/-- The failing Receive stands in the place of the filler past the bound (R1-8). -/
theorem witness_CommandFailsBeforeTheStatusByte :
    let a : LinkAnswer := { byte := 0xFF, status := 1 }
    let fs := List.replicate 8 (0xFF#8)
    let s := block [.request 2] (arrives 0 :: (fs.map arrives ++ a :: []))
    s.phase = .idle ∧ isCommand 2 = true ∧ s.host = [.request 2] ∧ hostWaits [] = true ∧
      (∀ x ∈ fs, x.getLsbD 7 = true) ∧ fs.length ≤ s.params.rFillerMax ∧ a.status ≠ 0 := by decide

/-- The last trailing byte fails (R7-7). -/
theorem witness_CommandFailsInTheTail :
    let a : LinkAnswer := { byte := 0x55, status := 9 }
    let tail := [0x00#8, 0x00, 0x01]
    let s := block [.request 0x804] (arrives 0 :: ([].map arrives ++ arrives 1 :: (tail.map arrives ++ a :: [])))
    s.phase = .idle ∧ isCommand 0x804 = true ∧ s.host = [.request 0x804] ∧ hostWaits [] = true ∧
      (1#8).getLsbD 7 = false ∧ tail.length < tailCount (reqOp 0x804) ∧ a.status ≠ 0 := by decide

theorem witness_CommandIsBounded :
    let s := block [.request 0x3A03, .request 2] (List.replicate 14 (arrives 0xFF))
    s.phase = .idle ∧ isCommand 0x3A03 = true ∧ s.host = .request 0x3A03 :: [.request 2] ∧ hostWaits [.request 2] = true ∧
      s.params.rFillerMax + 6 ≤ s.link.length := by decide

theorem witness_UnansweredTransactionKeepsTheBlockBusy :
    let s := running 2 .tx 0 [] []
    s.phase ≠ .idle ∧ hostWaits s.host = true ∧ s.link = [] := by decide

theorem witness_R1FlagsAreStatusBits : State.reset.resp[0] = 0xFF := by decide

theorem witness_FieldsAreUsableAfterTheirOwnResponse :
    isCommand 2 = true ∧ ([] : List Byte).length = tailCount (reqOp 2) ∧ isCommand 4 = true ∧
      [0#8, 0, 1, 0x55].length = tailCount (reqOp 4) ∧ State.reset.params.stTimeout ≠ State.reset.params.stOk := by decide

theorem witness_CsdBitsAreBufferBits : 127 < 128 ∧ 80 + 48 ≤ 128 ∧ 47 < 48 := by decide

theorem witness_DecodeOfNoVersionClearsTheGeometry :
    ((0 : BitVec 2) = 0 ∨ (0 : BitVec 2) = 3) ∧ ((3 : BitVec 2) = 0 ∨ (3 : BitVec 2) = 3) := by decide

/-- Two different images that agree on every field a decode reads (CSD_STRUCTURE and the end bit differ). -/
theorem witness_DecodeReadsOnlyTheListedFields :
    let b := imageV1
    let c := (imageV1.set 0 0xC0).set 15 0x00
    b ≠ c ∧ (∀ n : Fin 128, (80 ≤ n.val ∧ n.val ≤ 103) ∨ n.val = 21 → csdBit b n.val = csdBit c n.val) ∧
      (∀ n : Fin 128, (47 ≤ n.val ∧ n.val ≤ 73) → csdBit b n.val = csdBit c n.val) := by decide

theorem witness_CsdbufWriteTakesEffectInItsStep :
    ({ running 2 .rxStatus 0 [] [] with host := [.writeCsd 15 0xFF] } : State).host = [.writeCsd 15 0xFF] := by decide

theorem witness_SameStepWriteIsSeenOrNot :
    [0x15, 0x25].all (fun w =>
      let s := block [.requestWhileWriting w 3 0x32] []
      decide (s.phase = .idle ∧ s.host = [.requestWhileWriting w 3 0x32] ∧ reservedClear w = true ∧ reqOp w = 5 ∧
        (reqVer w = 1 ∨ reqVer w = 2))) = true := by decide

theorem witness_WriteBesideARequestOnlyWrites :
    (let s := { running 2 .rxStatus 0 [] [] with host := [.requestWhileWriting 2 0 1] }
     s.host = [.requestWhileWriting 2 0 1] ∧ s.phase ≠ .idle) ∧
    (let s := block [.requestWhileWriting 0x35 0 1] []
     s.host = [.requestWhileWriting 0x35 0 1] ∧ s.phase = .idle ∧
      ¬ (reservedClear 0x35 = true ∧ reqOp 0x35 = 5 ∧ (reqVer 0x35 = 1 ∨ reqVer 0x35 = 2))) := by decide

theorem witness_ReadsReturnAndDisturbNothing :
    (let s := block [.read .status] []
     s.host = [.read .status] ∧ s.phase = .idle) ∧
    (let s := { running 2 .rxStatus 0 [] [] with host := [.read .busy] }
     s.host = [.read .busy] ∧ s.phase ≠ .idle ∧ settledWhileBusy .busy = true) := by decide

theorem witness_IdleHostLeavesTheStepToTheBlock :
    ({ running 2 .tx 0 [] [arrives 0] with host := [.idle] } : State).host = [.idle] := by decide

theorem witness_RequestWaitsWhileBusy :
    let s := { running 2 .rxStatus 0 [] [arrives 0xFF] with host := [.request 0] }
    s.phase ≠ .idle ∧ s.host = [.request 0] := by decide

theorem witness_StepRunsTheAcceptedRequest :
    let s := block [.request 0x3A03] []
    s.phase = .idle ∧ s.host = [.request 0x3A03] ∧ decode (.request 0x3A03) = .ok (.cmdR3 0 58 0) := by decide

theorem witness_StepRunsTheFrameInTransmit :
    let s := running 0x3A03 .tx 0 [] [arrives 0]
    s.phase = .tx ∧ decode (.frame (frameToBits s.frame)) = .ok (.sdCmd58ReadOcr 0x7E) ∧ hostWaits s.host = true ∧
      ({ s with host := [.idle] } : State).host = [.idle] := by decide

/-- Reset in the middle of an operation, and while idle. -/
theorem witness_ResetRestoresEveryRegister :
    (let s := { running 2 .rxStatus 2 [] [arrives 1] with host := [.reset] }
     s.host = [.reset] ∧ s.phase ≠ .idle) ∧
    (block [.reset] []).host = [.reset] := by decide

theorem witness_OnlyTheHostChangesCsdbuf :
    ∃ s t : State, step s = .next t ∧ t.csdbuf ≠ s.csdbuf := ⟨block [.writeCsd 0 1] [], _, rfl, by decide⟩

theorem witness_OnlyDecodeChangesTheGeometry :
    ∃ s t : State, step s = .next t ∧ t.geom ≠ s.geom := ⟨block [.request 0x15] [], _, rfl, by decide⟩

theorem witness_FrameChangesOnlyWhenBuilt :
    ∃ s t : State, step s = .next t ∧ t.frame ≠ s.frame := ⟨block [.request 1] [], _, rfl, by decide⟩

theorem witness_ReqChangesOnlyOnAcceptance :
    ∃ s t : State, step s = .next t ∧ (t.req ≠ s.req ∨ t.lastOp ≠ s.lastOp) := ⟨block [.request 1] [], _, rfl, by decide⟩

theorem witness_StatusChangesOnlyWhenAnOperationEnds :
    ∃ s t : State, step s = .next t ∧ t.status ≠ s.status := ⟨running 2 .rxStatus 8 [] [arrives 0xFF], _, rfl, by decide⟩

/-- A step with a transaction, and one with none. -/
theorem witness_OneTransactionAtATime :
    (∃ s t : State, step s = .next t ∧ t.wire ≠ s.wire) ∧ ∃ s t : State, step s = .next t ∧ t.wire = s.wire ∧ t ≠ s :=
  ⟨⟨running 2 .tx 0 [] [arrives 0], _, rfl, by decide⟩, ⟨block [.request 1] [], _, rfl, by decide⟩⟩

/-- Two blocks that differ in every result register. -/
theorem witness_NoResultRegisterIsAnInput :
    let s₁ := block [.request 0x3A03] [arrives 0]
    let s₂ : State :=
      { block [.request 0x3A03] [arrives 0] with
        lastOp := 5, status := 1, xstat := 7, frame := .replicate 6 1, resp := .replicate 5 0, rcount := 3, filler := 4
        geom := decodeV1 imageV1 }
    s₁.phase = .idle ∧ s₂.phase = .idle ∧ s₁.host = [.request 0x3A03] ∧ s₂.host = [.request 0x3A03] ∧ s₁.params = s₂.params ∧
      s₁.link = s₂.link ∧ s₁.wire = s₂.wire ∧ (reqOp 0x3A03 = 5 → s₁.csdbuf = s₂.csdbuf) ∧ s₁.status ≠ s₂.status ∧
      s₁.resp ≠ s₂.resp ∧ isCommand 0x3A03 = true := by decide

/-- A block in the middle of a READ_OCR, after a decode, has the invariant. -/
theorem witness_EveryStepKeepsTheInvariant :
    ∃ s t : State, s.Inv ∧ s.phase = .rxTail ∧ step s = .next t := by
  refine ⟨{ running 0x3A03 .rxTail 8 [0x01, 0xC0] [arrives 0xFF] with geom := decodeV1 imageV1 }, _, ?_, rfl, rfl⟩
  exact ⟨by decide, by decide, by decide, by decide, by decide, by decide, by decide, .inr ⟨58, 0, by decide⟩, by decide, by decide,
    by decide, by decide, by decide, by decide, by constructor <;> decide⟩

/-- The block after a timeout has the invariant, with a bit of STATUS set. -/
theorem witness_StatusHasAtMostOneBit :
    ∃ s : State, s.Inv ∧ s.status = 2 := by
  refine ⟨{ running 2 .idle 9 [] [] with status := 2 }, ?_, rfl⟩
  exact ⟨by decide, by decide, by decide, by decide, by decide, by decide, by decide, .inr ⟨0, 0, by decide⟩, by decide, by decide,
    by decide, by decide, by decide, by decide, by constructor <;> decide⟩

/-- The block after a timeout has the invariant, FILLER at its largest value, R_FILLER_MAX + 1. -/
theorem witness_ReadValuesAreTheRegisters :
    ∃ s : State, s.Inv ∧ s.filler = s.params.rFillerMax + 1 := by
  refine ⟨{ running 2 .idle 9 [] [] with status := 2 }, ?_, rfl⟩
  exact ⟨by decide, by decide, by decide, by decide, by decide, by decide, by decide, .inr ⟨0, 0, by decide⟩, by decide, by decide,
    by decide, by decide, by decide, by decide, by constructor <;> decide⟩

end Sys2Proof.Tests
end

section
/-!
PROOFS. What an accepted request and one step can do to each register, said once. Every statement about a whole step is read
off `StepEffect`.
-/

namespace Sys2Proof.Machine

/-- A `CMD.Rx` is a word that is not refused and whose OP is 2, 3 or 4. -/
theorem isCommand_iff (w : Word) :
    isCommand w = true ↔ reservedClear w = true ∧ (reqOp w = 2#4 ∨ reqOp w = 3#4 ∨ reqOp w = 4#4) := by
  simp [isCommand, or_assoc]

section AcceptEquations

variable {w : Word}

/-- A refused word is no word of the first six operations (R74). -/
theorem not_operation_of_refused (hw : reservedClear w = false ∨ 6 ≤ (reqOp w).toNat) {k : BitVec 4} (hk : k.toNat < 6) :
    ¬ (reservedClear w = true ∧ reqOp w = k) := by
  rintro ⟨hr, rfl⟩
  have h6 : 6 ≤ (reqOp w).toNat := hw.resolve_left (by simp [hr])
  omega

/-- A refused word is no CMD.Rx. -/
theorem isCommand_of_refused (hw : reservedClear w = false ∨ 6 ≤ (reqOp w).toNat) : isCommand w = false := by
  rw [Bool.eq_false_iff]
  intro hc
  obtain ⟨hr, ho | ho | ho⟩ := (isCommand_iff w).mp hc <;> exact not_operation_of_refused hw (by decide) ⟨hr, ho⟩

/-- A refused word does nothing beyond the latch and STATUS (R205). -/
theorem accept_of_refused (hw : reservedClear w = false ∨ 6 ≤ (reqOp w).toNat) (s : State) :
    accept w s = .next (refuseRequest (latch w s)) := by
  rcases accept_cases w s with ⟨-, e⟩ | ⟨hr, ho⟩
  · exact e
  · rcases ho with ⟨ho, -⟩ | ⟨ho, -⟩ | ⟨ho | ho | ho, -⟩ | ⟨ho, -⟩ <;>
      exact absurd ⟨hr, ho⟩ (not_operation_of_refused hw (by decide))

theorem accept_of_nop (hr : reservedClear w = true) (ho : reqOp w = 0#4) (s : State) :
    accept w s = .next (finish s.params.stOk (latch w s)) := by
  simpa [hr, ho] using accept_cases w s

theorem accept_of_frame (hr : reservedClear w = true) (ho : reqOp w = 1#4) (s : State) :
    accept w s = .next (finish s.params.stOk (writeFrame (reqIdx w) (reqArg w) (latch w s))) := by
  simpa [hr, ho] using accept_cases w s

theorem accept_of_command (hc : isCommand w = true) (s : State) :
    accept w s = .next (startCommand (reqIdx w) (reqArg w) (latch w s)) := by
  obtain ⟨hr, ho | ho | ho⟩ := (isCommand_iff w).mp hc <;> simpa [hr, ho] using accept_cases w s

theorem accept_of_csdDecode (hr : reservedClear w = true) (ho : reqOp w = 5#4) (s : State) :
    accept w s = execCsdDecode (reqVer w) (reqIdx w) (reqArg w) (latch w s) := by
  simpa [hr, ho] using accept_cases w s

end AcceptEquations

/-- What the accepting step of `w` does to the registers (R240): each is written as its rule allows, or left alone. -/
structure Accepted (w : Word) (s t : State) : Prop where
  req : t.req = w
  lastOp : t.lastOp = reqOp w
  csdbuf : t.csdbuf = s.csdbuf
  geom : t.geom = s.geom ∨ (reservedClear w = true ∧ reqOp w = 5)
  frame : t.frame = s.frame ∨
    (reservedClear w = true ∧ 1 ≤ (reqOp w).toNat ∧ (reqOp w).toNat ≤ 4 ∧ t.frame = buildFrame (reqIdx w) (reqArg w))
  status : t.status = s.status ∨
    (t.phase = .idle ∧ (t.status = s.params.stOk ∨ t.status = s.params.stError ∨ t.status = s.params.stTimeout))

/-- CSD.DECODE finishes with ST_OK or ST_ERROR, and the geometry is that of a decode or all 0 (R178, R179). -/
theorem execCsdDecode_finishes (v : BitVec 2) (i : BitVec 6) (a : BitVec 32) (s : State) :
    ∃ code g, execCsdDecode v i a s = .next (finish code (writeGeometry g s)) ∧
      (code = s.params.stOk ∨ code = s.params.stError) ∧
      (g = decodeV1 s.csdbuf ∨ g = decodeV2 s.csdbuf ∨ g = .zero) := by
  rcases execCsdDecode_cases v i a s with ⟨-, h⟩ | ⟨-, h⟩ | ⟨-, -, h⟩
  · exact ⟨_, _, h, .inl rfl, .inl rfl⟩
  · exact ⟨_, _, h, .inl rfl, .inr (.inl rfl)⟩
  · exact ⟨_, _, h, .inr rfl, .inr (.inr rfl)⟩

theorem accepted_of_accept {w : Word} {s t : State} (h : accept w s = .next t) : Accepted w s t := by
  have next {u : State} (e : accept w s = .next u) : t = u := Host.Outcome.next.inj (h.symm.trans e)
  rcases accept_cases w s with ⟨-, ha⟩ | ⟨hr, ⟨-, ha⟩ | ⟨ho, ha⟩ | ⟨ho, ha⟩ | ⟨ho, ha⟩⟩
  · obtain rfl := next ha
    exact ⟨rfl, rfl, rfl, .inl rfl, .inl rfl, .inr ⟨rfl, .inr (.inl rfl)⟩⟩
  · obtain rfl := next ha
    exact ⟨rfl, rfl, rfl, .inl rfl, .inl rfl, .inr ⟨rfl, .inl rfl⟩⟩
  · obtain rfl := next ha
    exact ⟨rfl, rfl, rfl, .inl rfl, .inr ⟨hr, by simp [ho], by simp [ho], rfl⟩, .inr ⟨rfl, .inl rfl⟩⟩
  · obtain rfl := next ha
    have hop : 1 ≤ (reqOp w).toNat ∧ (reqOp w).toNat ≤ 4 := by
      rcases ho with ho | ho | ho <;> simp [ho]
    exact ⟨rfl, rfl, rfl, .inl rfl, .inr ⟨hr, hop.1, hop.2, rfl⟩, .inl rfl⟩
  · obtain ⟨code, g, hd, hc, -⟩ := execCsdDecode_finishes (reqVer w) (reqIdx w) (reqArg w) (latch w s)
    obtain rfl := next (ha.trans hd)
    exact ⟨rfl, rfl, rfl, .inr ⟨hr, ho⟩, .inl rfl, .inr ⟨rfl, hc.imp_right .inl⟩⟩

/-- The host writes CSDBUF in this step, with a request beside it or alone (R23, R242). -/
def hostWritesCsd (s : State) : Prop :=
  (∃ i b rest, s.host = .writeCsd i b :: rest) ∨ (∃ w i b rest, s.host = .requestWhileWriting w i b :: rest)

/-- Everything a step from `s` to `t` can be. -/
inductive StepEffect (s t : State) : Prop where
  /-- The block's own move. -/
  | own (hs : List HostAction) (move : advance { s with host := hs } = .next t)
  /-- A request is accepted; a CSDBUF write beside it, if there is one, lands before or after (R242). -/
  | accepted (w : Word) (hs : List HostAction) (old new : Bytes 16) (n : Nat) (u : State) (accepts : accepts s w)
      (run : accept w { s with host := hs, csdbuf := old, draws := n } = .next u)
      (result : t = { u with csdbuf := new }) (csdbuf : new = s.csdbuf ∨ hostWritesCsd s)
  /-- A CSDBUF write or a read: no other register changes. -/
  | port (hs : List HostAction) (c : Bytes 16) (v : Word) (n : Nat)
      (result : t = { s with host := hs, csdbuf := c, readOut := v, draws := n }) (csdbuf : c = s.csdbuf ∨ hostWritesCsd s)
  /-- Reset. -/
  | reset (hs : List HostAction) (raised : s.host = .reset :: hs) (result : t = resetBlock { s with host := hs })

/-- A read sets `readOut`, and may draw a free value. -/
theorem readReg_eq (r : HostReg) (s : State) : ∃ v n, readReg r s = { s with readOut := v, draws := n } := by
  unfold readReg
  split
  · exact ⟨_, _, rfl⟩
  · exact ⟨_, s.draws, rfl⟩

theorem stepEffect {s t : State} (h : step s = .next t) : StepEffect s t := by
  have next {u : State} (e : step s = .next u) : t = u := Host.Outcome.next.inj (h.symm.trans e)
  rcases step_cases s with ⟨hh, e⟩ | ⟨rest, hh, e⟩ | ⟨w, rest, hh, ⟨hp, e⟩ | ⟨hp, e⟩⟩ | ⟨i, b, rest, hh, e⟩ |
    ⟨w, i, b, rest, hh, ⟨hp, e⟩ | ⟨hp, e | e⟩⟩ | ⟨r, rest, hh, e⟩ | ⟨rest, hh, e⟩
  · exact .own s.host (e.symm.trans h)
  · exact .own rest (e.symm.trans h)
  · exact .own s.host (e.symm.trans h)
  · have ha := e.symm.trans h
    have hc : t.csdbuf = s.csdbuf := (accepted_of_accept ha).csdbuf
    exact .accepted w rest s.csdbuf t.csdbuf s.draws t ⟨hp, .inl ⟨rest, hh⟩⟩ ha rfl (.inl hc)
  · exact .port rest _ s.readOut s.draws (next e) (.inr (.inl ⟨i, b, rest, hh⟩))
  · exact .port _ _ s.readOut s.draws (next e) (.inr (.inr ⟨w, i, b, rest, hh⟩))
  · exact .accepted w rest _ t.csdbuf _ t ⟨hp, .inr ⟨i, b, rest, hh⟩⟩ (e.symm.trans h) rfl (.inr (.inr ⟨w, i, b, rest, hh⟩))
  · obtain ⟨u, hu⟩ := accept_answers w { s with host := rest, draws := s.draws + 1 }
    rw [hu] at e
    exact .accepted w rest s.csdbuf (u.csdbuf.set i b) _ u ⟨hp, .inr ⟨i, b, rest, hh⟩⟩ hu (next e)
      (.inr (.inr ⟨w, i, b, rest, hh⟩))
  · obtain ⟨v, n, hr⟩ := readReg_eq r { s with host := rest }
    exact .port rest s.csdbuf v n ((next e).trans hr) (.inl rfl)
  · exact .reset rest hh (next e)

end Sys2Proof.Machine
end

section
/-!
PROOFS. The frame statements of 10_state.md: CSDBUF, the geometry, FRAME, REQ with LAST_OP, and STATUS change only where their
rules say.
-/

namespace Sys2Proof.Machine

/-- The block's own move leaves alone what `Untouched` lists. -/
theorem untouched_of_advance {s t : State} (h : advance s = .next t) : Untouched s t := by
  obtain ⟨u, hu, hun, -⟩ := advance_cases s
  obtain rfl := Host.Outcome.next.inj (hu.symm.trans h)
  exact hun

/-- The block's own move changes STATUS only by ending its operation, with one of the three codes (R25). -/
theorem status_of_advance {s t : State} (h : advance s = .next t) :
    t.status = s.status ∨ (s.phase ≠ .idle ∧ t.phase = .idle ∧
      (t.status = s.params.stOk ∨ t.status = s.params.stError ∨ t.status = s.params.stTimeout)) := by
  obtain ⟨u, hu, -, hone⟩ := advance_cases s
  obtain rfl := Host.Outcome.next.inj (hu.symm.trans h)
  rcases hone with rfl | hone
  · exact .inl rfl
  · rcases hone.status with ⟨-, hs, -⟩ | ⟨hp, ⟨-, he⟩ | ⟨-, hok | hto⟩⟩
    · exact .inl hs
    · exact .inr ⟨hone.busy, hp, .inr (.inl he)⟩
    · exact .inr ⟨hone.busy, hp, .inl hok⟩
    · exact .inr ⟨hone.busy, hp, .inr (.inr hto)⟩

/-- Settles O50: the block's moves and the acceptances leave CSDBUF alone, so a change is the host's. -/
theorem onlyTheHostChangesCsdbuf : Obligations.OnlyTheHostChangesCsdbuf := by
  intro s t h hne
  rw [← or_assoc]
  cases stepEffect h with
  | own hs move => exact absurd (untouched_of_advance move).csdbuf hne
  | accepted w hs old new n u accepts run result csdbuf =>
    subst result
    exact .inl (csdbuf.resolve_left hne)
  | port hs c v n result csdbuf =>
    subst result
    exact .inl (csdbuf.resolve_left hne)
  | reset hs raised => exact .inr ⟨hs, raised⟩

/-- Settles O51: of the six operations only CSD.DECODE writes the geometry. -/
theorem onlyDecodeChangesTheGeometry : Obligations.OnlyDecodeChangesTheGeometry := by
  intro s t h hne
  cases stepEffect h with
  | own hs move => exact absurd (untouched_of_advance move).geom hne
  | accepted w hs old new n u accepts run result =>
    subst result
    exact .inl ⟨w, accepts, (accepted_of_accept run).geom.resolve_left hne⟩
  | port hs c v n result =>
    subst result
    exact absurd rfl hne
  | reset hs raised => exact .inr ⟨hs, raised⟩

/-- Settles O52: of the six operations only FRAME and the CMD.Rx build a frame. -/
theorem frameChangesOnlyWhenBuilt : Obligations.FrameChangesOnlyWhenBuilt := by
  intro s t h hne
  cases stepEffect h with
  | own hs move => exact absurd (untouched_of_advance move).frame hne
  | accepted w hs old new n u accepts run result =>
    subst result
    exact .inl ⟨w, accepts, (accepted_of_accept run).frame.resolve_left hne⟩
  | port hs c v n result =>
    subst result
    exact absurd rfl hne
  | reset hs raised => exact .inr ⟨hs, raised⟩

/-- Settles O53: the latch of an accepted request is all that writes REQ and LAST_OP. -/
theorem reqChangesOnlyOnAcceptance : Obligations.ReqChangesOnlyOnAcceptance := by
  intro s t h hne
  cases stepEffect h with
  | own hs move =>
    have hun := untouched_of_advance move
    exact absurd hne (not_or.mpr ⟨not_not.mpr hun.req, not_not.mpr hun.lastOp⟩)
  | accepted w hs old new n u accepts run result =>
    subst result
    have ha := accepted_of_accept run
    exact .inl ⟨w, accepts, ha.req, ha.lastOp⟩
  | port hs c v n result =>
    subst result
    exact absurd hne (by simp)
  | reset hs raised => exact .inr ⟨hs, raised⟩

/-- Settles O54: STATUS is written where an operation ends, by the block's own move or in the accepting step, and by reset. -/
theorem statusChangesOnlyWhenAnOperationEnds : Obligations.StatusChangesOnlyWhenAnOperationEnds := by
  intro s t h hne
  cases stepEffect h with
  | own hs move =>
    obtain ⟨hb, hp, hc⟩ := (status_of_advance move).resolve_left hne
    exact ⟨hp, .inl ⟨.inl hb, hc⟩⟩
  | accepted w hs old new n u accepts run result =>
    subst result
    obtain ⟨hp, hc⟩ := (accepted_of_accept run).status.resolve_left hne
    exact ⟨hp, .inl ⟨.inr ⟨w, accepts⟩, hc⟩⟩
  | port hs c v n result =>
    subst result
    exact absurd rfl hne
  | reset hs raised result =>
    subst result
    exact ⟨rfl, .inr ⟨⟨hs, raised⟩, rfl⟩⟩

end Sys2Proof.Machine
end

section
/-!
PROOFS. The invariant at reset and over a step: one lemma per operation of the block, then one use of `StepEffect`.
-/

namespace Sys2Proof.Machine

/-- The geometry after reset and after a failed decode (R179). -/
theorem Geometry.zero_consistent : Geometry.zero.Consistent := by
  constructor <;> decide

/-- BLOCK_SIZE loses no bit (R169). -/
theorem toNat_blockSize (blLen : BitVec 4) : (blockSize blLen).toNat = 2 ^ blLen.toNat := by
  decide +revert

/-- The v1 capacity loses no bit (R173). -/
theorem toNat_capacityV1 {cSize : BitVec 22} (hc : cSize.toNat < 4096) (mult : BitVec 3) (blLen : BitVec 4) :
    (capacityV1 cSize mult blLen).toNat = (cSize.toNat + 1) * 2 ^ (mult.toNat + 2) * 2 ^ blLen.toNat := by
  have hexp : 2 ^ (mult.toNat + 2 + blLen.toNat) ≤ 2 ^ 24 := Nat.pow_le_pow_right (by decide) (by omega)
  have hprod : (cSize.toNat + 1) * 2 ^ (mult.toNat + 2 + blLen.toNat) ≤ 4096 * 2 ^ 24 := Nat.mul_le_mul (by omega) hexp
  have hsum : (cSize.setWidth 64 + 1).toNat = cSize.toNat + 1 := by
    bv_omega
  rw [capacityV1, BitVec.toNat_shiftLeft, hsum, Nat.shiftLeft_eq, Nat.mod_eq_of_lt (by omega), Nat.pow_add, Nat.mul_assoc]

/-- The v2 capacity loses no bit (R175). -/
theorem toNat_capacityV2 (cSize : BitVec 22) : (capacityV2 cSize).toNat = (cSize.toNat + 1) * 512 := by
  unfold capacityV2
  bv_omega

/-- SPEED_VALID says that the tables give a speed (R167): both unit code and time value are in range, with a nonzero entry. -/
theorem speedValid_iff (t : Byte) : speedValid t = true ↔ speedKbps t ≠ 0 := by
  have h : ∀ (u : BitVec 3) (v : BitVec 4), (decide (u.toNat ≤ 3) && v != 0) = true ↔
      BitVec.ofNat 20 (unit10.getD u.toNat 0 * tv10.getD v.toNat 0) ≠ 0 := by decide
  exact h (speedUnit t) (speedTimeValue t)

theorem decodeV1_consistent (b : Bytes 16) : (decodeV1 b).Consistent where
  zero_unless_valid := nofun
  version _ := .inl rfl
  block_size _ := toNat_blockSize _
  capacity_v1 _ _ := by
    have hc : ((csdCSizeV1 b).setWidth 22).toNat < 4096 := by
      rw [BitVec.toNat_setWidth]
      omega
    exact ⟨hc, (toNat_capacityV1 hc _ _).trans (by rw [← toNat_blockSize]; rfl)⟩
  capacity_v2 _ hv := absurd hv (by simp [decodeV1, decodeCommon])
  speed := speedValid_iff _

theorem decodeV2_consistent (b : Bytes 16) : (decodeV2 b).Consistent where
  zero_unless_valid := nofun
  version _ := .inr rfl
  block_size _ := toNat_blockSize _
  capacity_v1 _ hv := absurd hv (by simp [decodeV2, decodeCommon])
  capacity_v2 _ _ := ⟨rfl, toNat_capacityV2 _⟩
  speed := speedValid_iff _

/-- What `Params.wf` says of the numbers the invariant and the reads use. -/
theorem params_bounds_of_wf {p : Params} (hp : p.wf = true) :
    p.stOk = 0 ∧ p.rFillerMax + 1 < 2 ^ 64 ∧ p.xstatW ≤ 64 := by
  simp only [Params.wf, Bool.and_eq_true, beq_iff_eq, decide_eq_true_eq] at hp
  tauto

/-- Settles O57: the registers at reset, field by field. -/
theorem invariantHoldsAtReset : Obligations.InvariantHoldsAtReset where
  params_wf := by decide
  last_op := by decide
  status_code := .inl rfl
  rcount_bound := by decide
  filler_bound := .inl (by decide)
  unreceived := by decide
  status_byte := by decide
  frame_built := .inl rfl
  xstat_error := by decide
  xstat_fits := by decide
  running := by decide
  sending := by decide
  awaiting_status := by decide
  in_tail := by decide
  geometry := Geometry.zero_consistent

/-- The invariant says nothing of CSDBUF or of the model's own fields, `link` apart. -/
theorem State.Inv.of_outside {s : State} (h : s.Inv) (hs : List HostAction) (c : Bytes 16) (ws : List Transaction) (v : Word)
    (n : Nat) : ({ s with host := hs, csdbuf := c, wire := ws, readOut := v, draws := n } : State).Inv :=
  { h with }

section Busy

variable {s : State} (h : s.Inv) (hb : s.phase ≠ .idle)
include h hb

/-- No failure code stands in XSTAT while an operation runs. -/
theorem State.Inv.xstat_of_busy : s.xstat = 0 :=
  not_not.mp fun hx => hb (h.xstat_error hx).1

/-- FILLER passes its bound only as the operation ends. -/
theorem State.Inv.filler_of_busy : s.filler ≤ s.params.rFillerMax :=
  h.filler_bound.resolve_right fun ⟨_, hi, _⟩ => hb hi

end Busy

section Idle

variable {s : State} (h : s.Inv) (hi : s.phase = .idle)
include h hi

theorem State.Inv.latch (w : Word) : (latch w s).Inv :=
  { h with
    last_op := rfl
    xstat_error := fun hx => absurd rfl hx
    xstat_fits := ⟨Nat.two_pow_pos _, h.xstat_fits.2⟩
    running := fun hp => absurd hi hp
    in_tail := fun hp => nomatch hi.symm.trans hp }

theorem State.Inv.writeFrame (idx : BitVec 6) (arg : BitVec 32) : (writeFrame idx arg s).Inv :=
  { h with
    frame_built := .inr ⟨idx, arg, rfl⟩
    running := fun hp => absurd hi hp }

end Idle

/-- A command latched in REQ starts with its response registers preset and its own frame (R120). -/
theorem State.Inv.startCommand {s : State} (h : s.Inv) (hc : isCommand s.req = true) (hx : s.xstat = 0) :
    (startCommand (reqIdx s.req) (reqArg s.req) s).Inv :=
  { h with
    rcount_bound := Nat.zero_le _
    filler_bound := .inl (Nat.zero_le _)
    unreceived := fun k _ => by simp
    status_byte := fun hr => absurd rfl hr
    frame_built := .inr ⟨_, _, rfl⟩
    xstat_error := fun hne => absurd hx hne
    running := fun _ => ⟨hc, rfl⟩
    sending := fun _ => ⟨rfl, rfl⟩
    awaiting_status := nofun
    in_tail := nofun }

theorem State.Inv.writeGeometry {s : State} (h : s.Inv) {g : Geometry} (hg : g.Consistent) : (writeGeometry g s).Inv :=
  { h with geometry := hg }

/-- An operation ends with one of the three codes, and with a failure code only beside ST_ERROR (R26, R203). -/
theorem State.Inv.finish {s : State} (h : s.Inv) {code : Byte} {ts : XStatus}
    (hc : code = s.params.stOk ∨ code = s.params.stError ∨ code = s.params.stTimeout)
    (he : ts ≠ 0 → code = s.params.stError) (hf : ts < 2 ^ s.params.xstatW) :
    (finish code { s with xstat := ts }).Inv :=
  { h with
    status_code := hc
    filler_bound := h.filler_bound.imp_right fun ⟨hm, _, h0⟩ => ⟨hm, rfl, h0⟩
    xstat_error := fun hx => ⟨rfl, he hx⟩
    xstat_fits := ⟨hf, h.xstat_fits.2⟩
    running := fun hp => absurd rfl hp
    sending := nofun
    awaiting_status := nofun
    in_tail := nofun }

theorem State.Inv.failLink {s : State} (h : s.Inv) {ts : XStatus} (hf : ts < 2 ^ s.params.xstatW) : (failLink ts s).Inv :=
  h.finish (.inr (.inl rfl)) (fun _ => rfl) hf

/-- A latched request ends its operation in the accepting step, XSTAT = 0. -/
theorem State.Inv.finish_latched {s : State} (h : s.Inv) (hx : s.xstat = 0) {code : Byte}
    (hc : code = s.params.stOk ∨ code = s.params.stError) : (Machine.finish code s).Inv :=
  h.finish (hc.imp_right .inl) (fun hne => absurd hx hne) h.xstat_fits.1

theorem State.Inv.accept {s t : State} (h : s.Inv) (hi : s.phase = .idle) {w : Word} (ha : accept w s = .next t) : t.Inv := by
  have hl : (Machine.latch w s).Inv := h.latch hi w
  have next {u : State} (e : Machine.accept w s = .next u) : t = u := Host.Outcome.next.inj (ha.symm.trans e)
  rcases accept_cases w s with ⟨-, e⟩ | ⟨hr, ⟨-, e⟩ | ⟨-, e⟩ | ⟨ho, e⟩ | ⟨-, e⟩⟩
  · obtain rfl := next e
    exact hl.finish_latched rfl (.inr rfl)
  · obtain rfl := next e
    exact hl.finish_latched rfl (.inl rfl)
  · obtain rfl := next e
    exact (hl.writeFrame hi _ _).finish_latched rfl (.inl rfl)
  · obtain rfl := next e
    exact hl.startCommand ((isCommand_iff w).mpr ⟨hr, ho⟩) rfl
  · obtain ⟨code, g, hd, hc, hg⟩ := execCsdDecode_finishes (reqVer w) (reqIdx w) (reqArg w) (Machine.latch w s)
    obtain rfl := next (e.trans hd)
    have hcons : g.Consistent := by
      rcases hg with rfl | rfl | rfl
      · exact decodeV1_consistent _
      · exact decodeV2_consistent _
      · exact Geometry.zero_consistent
    exact (hl.writeGeometry hcons).finish_latched rfl hc

section Transactions

variable {s : State} (h : s.Inv)
include h

/-- Taking an answer from the link leaves the invariant; its status fits XSTAT. -/
theorem State.Inv.answered (t : Transaction) {a : LinkAnswer} {rest : List LinkAnswer} (hl : s.link = a :: rest) :
    (answered t rest s).Inv ∧ a.status < 2 ^ s.params.xstatW := by
  obtain ⟨hx, hfit⟩ := h.xstat_fits
  rw [hl] at hfit
  obtain ⟨ha, hrest⟩ := List.forall_mem_cons.mp hfit
  exact ⟨{ h with xstat_fits := ⟨hx, hrest⟩ }, ha⟩

theorem State.Inv.transmit (hp : s.phase = .tx) : (transmit s.frame s).Inv := by
  have hb : s.phase ≠ .idle := by simp [hp]
  rcases transmit_cases s.frame s with ⟨-, e⟩ | ⟨a, rest, hl, ⟨-, e⟩ | ⟨-, e⟩⟩ <;> rw [e]
  · exact h
  · obtain ⟨hans, hfit⟩ := h.answered (.transmit s.frame) hl
    exact hans.failLink hfit
  · obtain ⟨hans, -⟩ := h.answered (.transmit s.frame) hl
    exact
      { hans with
        filler_bound := .inl (h.filler_of_busy hb)
        xstat_error := fun hx => absurd (h.xstat_of_busy hb) hx
        running := fun _ => h.running hb
        sending := nofun
        awaiting_status := fun _ => (h.sending hp).1
        in_tail := nofun }

/-- Filler is counted up to the bound; past it the operation ends with no byte stored (R122). -/
theorem State.Inv.countFiller (hp : s.phase = .rxStatus) : (countFiller s).Inv := by
  have hb : s.phase ≠ .idle := by simp [hp]
  rcases countFiller_cases s with ⟨hle, e⟩ | ⟨hlt, e⟩ <;> rw [e]
  · exact { h with
      filler_bound := .inl hle
      sending := fun ht => nomatch hp.symm.trans ht }
  · have hmax : s.filler + 1 = s.params.rFillerMax + 1 := by
      have := h.filler_of_busy hb
      omega
    exact { h with
      status_code := .inr (.inr rfl)
      filler_bound := .inr ⟨hmax, rfl, h.awaiting_status hp⟩
      xstat_error := fun hx => absurd (h.xstat_of_busy hb) hx
      running := fun hne => absurd rfl hne
      sending := nofun
      awaiting_status := nofun
      in_tail := nofun }

/-- Received bytes are stored: the operation goes on to its trailing bytes, or ends. -/
theorem State.Inv.stored (hb : s.phase ≠ .idle) {r : Bytes 5} {c : BitVec 3} {code : Byte} {p : Phase}
    (hcode : code = s.params.stOk ∨ code = s.params.stError ∨ code = s.params.stTimeout)
    (hc : c.toNat ≤ 5) (hr : ∀ k : Fin 5, c.toNat ≤ k.val → r[k] = 0xFF) (h0 : r[0].getLsbD 7 = false)
    (hp : p = .idle ∨ (p = .rxTail ∧ 1 ≤ c.toNat ∧ c.toNat ≤ 4 ∧ tailCount (reqOp s.req) = 4)) :
    ({ s with resp := r, rcount := c, status := code, phase := p } : State).Inv :=
  { h with
    status_code := hcode
    rcount_bound := hc
    filler_bound := .inl (h.filler_of_busy hb)
    unreceived := hr
    status_byte := fun _ => h0
    xstat_error := fun hx => absurd (h.xstat_of_busy hb) hx
    running := fun _ => h.running hb
    sending := fun ht => by rcases hp with rfl | ⟨rfl, -⟩ <;> cases ht
    awaiting_status := fun ht => by rcases hp with rfl | ⟨rfl, -⟩ <;> cases ht
    in_tail := fun ht => hp.elim (fun hi => nomatch hi.symm.trans ht) And.right }

omit h in
/-- A response with trailing bytes has four of them (R120). -/
theorem tailCount_eq_four {op : BitVec 4} (ht : 0 < tailCount op) : tailCount op = 4 := by
  decide +revert

/-- The status byte is stored in RESP[0]; what was not received stays 0xFF. -/
theorem State.Inv.storeStatusByte (hp : s.phase = .rxStatus) {b : Byte} (hbit : b.getLsbD 7 = false) :
    (storeStatusByte b s).Inv := by
  have hb : s.phase ≠ .idle := by simp [hp]
  have hr (k : Fin 5) (hk : (1#3).toNat ≤ k.val) : (s.resp.set 0 b)[k] = 0xFF := by
    have hk0 : 0 ≠ k.val := Nat.ne_of_lt hk
    have hold : s.resp[k] = 0xFF := h.unreceived k (by simp [h.awaiting_status hp])
    simpa [Vector.getElem_set, hk0] using hold
  have h0 : (s.resp.set 0 b)[0].getLsbD 7 = false := by simpa using hbit
  rcases storeStatusByte_cases b s with ⟨htail, e⟩ | ⟨-, e⟩ <;> rw [e]
  · exact h.stored hb h.status_code (by decide) hr h0 (.inr ⟨rfl, by decide, by decide, tailCount_eq_four htail⟩)
  · exact h.stored hb (.inl rfl) (c := 1) (by decide) hr h0 (.inl rfl)

/-- A trailing byte is stored at RCOUNT; the bytes before it stay, and those after it stay 0xFF. -/
theorem State.Inv.storeTailByte (hp : s.phase = .rxTail) (b : Byte) : (storeTailByte b s).Inv := by
  have hb : s.phase ≠ .idle := by simp [hp]
  obtain ⟨h1, h4, htail⟩ := h.in_tail hp
  have hc : (s.rcount + 1).toNat = s.rcount.toNat + 1 := by
    bv_omega
  have hr (k : Fin 5) (hk : (s.rcount + 1).toNat ≤ k.val) : (s.resp.setIfInBounds s.rcount.toNat b)[k] = 0xFF := by
    have hne : s.rcount.toNat ≠ k.val := by omega
    have hold : s.resp[k] = 0xFF := h.unreceived k (by omega)
    simpa [Vector.getElem_setIfInBounds, hne] using hold
  have h0 : (s.resp.setIfInBounds s.rcount.toNat b)[0].getLsbD 7 = false := by
    have hne : s.rcount.toNat ≠ 0 := by omega
    have hold : s.resp[0].getLsbD 7 = false := h.status_byte fun hz => hne (by simp [hz])
    simpa [Vector.getElem_setIfInBounds, hne] using hold
  rcases storeTailByte_cases b s with ⟨-, e⟩ | ⟨hlt, e⟩ <;> rw [e]
  · exact h.stored hb (.inl rfl) (c := s.rcount + 1) (by omega) hr h0 (.inl rfl)
  · have hstay := h.stored hb h.status_code (p := .rxTail) (by omega) hr h0 (.inr ⟨rfl, by omega, by omega, htail⟩)
    rwa [← hp] at hstay

theorem State.Inv.receiveStatus (hp : s.phase = .rxStatus) : (receiveStatus s).Inv := by
  rcases receiveStatus_cases s with ⟨-, e⟩ | ⟨a, rest, hl, ⟨-, e⟩ | ⟨-, -, e⟩ | ⟨-, hbit, e⟩⟩ <;> rw [e]
  · exact h
  all_goals obtain ⟨hans, hfit⟩ := h.answered .receive hl
  · exact hans.failLink hfit
  · exact hans.countFiller hp
  · exact hans.storeStatusByte hp hbit

theorem State.Inv.receiveTail (hp : s.phase = .rxTail) : (receiveTail s).Inv := by
  rcases receiveTail_cases s with ⟨-, e⟩ | ⟨a, rest, hl, ⟨-, e⟩ | ⟨-, e⟩⟩ <;> rw [e]
  · exact h
  all_goals obtain ⟨hans, hfit⟩ := h.answered .receive hl
  · exact hans.failLink hfit
  · exact hans.storeTailByte hp a.byte

theorem State.Inv.advance {t : State} (ha : advance s = .next t) : t.Inv := by
  obtain rfl := Host.Outcome.next.inj ((advance_eq s).symm.trans ha)
  cases hp : s.phase with
  | idle => exact h
  | tx => exact h.transmit hp
  | rxStatus => exact h.receiveStatus hp
  | rxTail => exact h.receiveTail hp

/-- Reset gives every register its reset value, under the same parameters, and drops at most one coming answer (R230). -/
theorem State.Inv.resetBlock : (resetBlock s).Inv :=
  { invariantHoldsAtReset with
    params_wf := h.params_wf
    status_code := .inl (params_bounds_of_wf h.params_wf).1.symm
    filler_bound := .inl (Nat.zero_le _)
    xstat_error := fun hx => absurd rfl hx
    xstat_fits := by
      refine ⟨Nat.two_pow_pos _, fun a ha => h.xstat_fits.2 a ?_⟩
      change a ∈ if s.busy then s.link.tail else s.link at ha
      split at ha
      · exact List.mem_of_mem_tail ha
      · exact ha }

end Transactions

/-- Settles O58: each of the four things a step can be keeps the invariant, and the fields it does not speak of are free. -/
theorem everyStepKeepsTheInvariant : Obligations.EveryStepKeepsTheInvariant := by
  intro s t h hstep
  cases stepEffect hstep with
  | own hs move => exact (h.of_outside hs _ _ _ _).advance move
  | accepted w hs old new n u accepts run result =>
    subst result
    exact ((h.of_outside hs old _ _ n).accept accepts.1 run).of_outside _ new _ _ _
  | port hs c v n result =>
    subst result
    exact h.of_outside hs c _ v n
  | reset hs raised result =>
    subst result
    exact (h.of_outside hs _ _ _ _).resetBlock

end Sys2Proof.Machine
end

section
/-!
PROOFS. The step of a CSDBUF write, of a read and of a frame in phase TX, the values at reset, and what a read returns.
-/

namespace Sys2Proof.Machine

/-- The step of a CSDBUF write is the write (R23). -/
theorem step_of_writeCsd {s : State} {i : Fin 16} {b : Byte} {rest : List HostAction} (hh : s.host = .writeCsd i b :: rest) :
    step s = .next (writeCsd i b { s with host := rest }) := by
  simp [step, hostStep, hh]

/-- The step of a read is the read (R37). -/
theorem step_of_read {s : State} {r : HostReg} {rest : List HostAction} (hh : s.host = .read r :: rest) :
    step s = .next (readReg r { s with host := rest }) := by
  simp [step, hostStep, hh]

/-- A step in which the host does nothing is the block's own move. -/
theorem step_of_idle {s : State} {rest : List HostAction} (hh : s.host = .idle :: rest) :
    step s = advance { s with host := rest } := by
  simp [step, hostStep, hh]

/-- The block's own move in phase TX runs the row that FRAME decodes to. -/
theorem advance_of_decode {s : State} {i : Instr} (hp : s.phase = .tx) (hd : decode (.frame (frameToBits s.frame)) = .ok i) :
    advance s = exec i s := by
  simp [advance, hp, sendFrame, hd]

/-- A read returns the register's value unless an operation is running that may touch it (R37, R243). -/
theorem readReg_of_settled {s : State} {r : HostReg} (h : s.phase = .idle ∨ settledWhileBusy r = true) :
    readReg r s = { s with readOut := regValue s r } := by
  unfold readReg
  rcases h with h | h <;> simp [State.busy, h]

/-- No register's value depends on what the host does next. -/
theorem regValue_host (s : State) (hs : List HostAction) (r : HostReg) : regValue { s with host := hs } r = regValue s r := by
  cases r <;> rfl

/-- Settles O39: the step is the write, and a vector written at `i` keeps its other bytes. -/
theorem csdbufWriteTakesEffectInItsStep : Obligations.CsdbufWriteTakesEffectInItsStep := by
  intro s i b rest hh
  refine ⟨_, step_of_writeCsd hh, rfl, ?_, fun j hj => ?_⟩
  · simp
  · have hne : i.val ≠ j.val := fun h => hj (Fin.ext h.symm)
    simp [hne]

/-- Settles O42: a read writes `readOut` alone, with the register's value where that is settled. -/
theorem readsReturnAndDisturbNothing : Obligations.ReadsReturnAndDisturbNothing := by
  intro s r rest hh
  by_cases hs : s.phase = .idle ∨ settledWhileBusy r = true
  · refine ⟨regValue s r, s.draws, ?_, fun _ => ⟨rfl, rfl⟩⟩
    rw [step_of_read hh, readReg_of_settled (s := { s with host := rest }) hs, regValue_host]
  · obtain ⟨v, n, hr⟩ := readReg_eq r { s with host := rest }
    exact ⟨v, n, (step_of_read hh).trans (congrArg _ hr), fun h => absurd h hs⟩

/-- Settles O46: with a waiting or an idle host the step is the block's own, which in phase TX runs the row in FRAME. -/
theorem stepRunsTheFrameInTransmit : Obligations.StepRunsTheFrameInTransmit := by
  intro s i hp hd
  refine ⟨fun hw => ?_, fun rest hh => ?_⟩
  · exact (step_of_hostWaits hw (by simp [hp])).trans (advance_of_decode hp hd)
  · exact (step_of_idle hh).trans (advance_of_decode (s := { s with host := rest }) hp hd)

/-- Settles O48: `State.reset` evaluated. -/
theorem resetValues : Obligations.ResetValues := by
  unfold Obligations.ResetValues
  decide

/-! ## What a read returns -/

/-- A flag reads as 0 or 1. -/
theorem flagWord_eq (b : Bool) : flagWord b = if b then 1 else 0 := by
  cases b <;> rfl

/-- A flag named by a proposition reads 1 exactly when it holds. -/
theorem flagWord_of_iff {b : Bool} {p : Prop} [Decidable p] (h : b = true ↔ p) : flagWord b = if p then 1 else 0 := by
  simp [flagWord_eq, h]

theorem toNat_flagWord_lt (b : Bool) : (flagWord b).toNat < 2 ^ 1 := by
  cases b <;> decide

/-- A zero-extended register fits the register's width. -/
theorem toNat_zext_lt {n : Nat} (x : BitVec n) (hn : n ≤ 64) : (x.setWidth 64 : Word).toNat < 2 ^ n :=
  (BitVec.toNat_setWidth_of_le hn).symm ▸ x.isLt

section Bits

variable (b : Byte)

/-- The low five bits of a byte are all 1 when the byte is 31 modulo 32. -/
theorem and_0x1F_eq_iff : b &&& 0x1F = 0x1F ↔ b.toNat % 32 = 31 := by
  decide +revert

/-- Bit 7 of a byte is set from 128 on. -/
theorem getLsbD_seven_iff : b.getLsbD 7 = true ↔ 128 ≤ b.toNat := by
  decide +revert

end Bits

/-- OCR_VOLT_OK in numbers (R133). -/
theorem ocrVoltOk_iff (r : Bytes 5) : ocrVoltOk r = true ↔ r[2].toNat % 32 = 31 ∧ 128 ≤ r[3].toNat := by
  simp only [ocrVoltOk, Bool.and_eq_true, beq_iff_eq, and_0x1F_eq_iff, getLsbD_seven_iff]

/-- R7_VHS is RESP[3] modulo 16 (R134). -/
theorem toNat_r7Vhs (r : Bytes 5) : (r7Vhs r).toNat = r[3].toNat % 16 := by
  simp [r7Vhs]

/-- R7_OK in numbers (R134). -/
theorem r7Ok_iff (r : Bytes 5) : r7Ok r = true ↔ r[4] = 0x55 ∧ r[3].toNat % 16 = 1 := by
  simp only [r7Ok, r7Echo, Bool.and_eq_true, beq_iff_eq, ← toNat_r7Vhs, BitVec.toNat_eq]
  simp

section Reads

variable {s : State} (h : s.Inv)
include h

/-- XSTAT, a status of `XSTAT_W` bits, is read whole (R26). -/
theorem toNat_regValue_xstat : (regValue s .xstat).toNat = s.xstat := by
  obtain ⟨-, -, hw⟩ := params_bounds_of_wf h.params_wf
  have hlt : s.xstat < 2 ^ 64 := h.xstat_fits.1.trans_le (Nat.pow_le_pow_right (by decide) hw)
  exact Nat.mod_eq_of_lt hlt

/-- FILLER counts to at most `R_FILLER_MAX + 1` (R30). -/
theorem State.Inv.filler_le : s.filler ≤ s.params.rFillerMax + 1 :=
  h.filler_bound.elim Nat.le_succ_of_le fun ⟨heq, _⟩ => heq.le

theorem toNat_regValue_filler : (regValue s .filler).toNat = s.filler := by
  obtain ⟨-, hmax, -⟩ := params_bounds_of_wf h.params_wf
  exact Nat.mod_eq_of_lt (h.filler_le.trans_lt hmax)

/-- Every value a read returns fits its register's width (R22 to R32). -/
theorem regValue_lt (r : HostReg) : (regValue s r).toNat < 2 ^ regWidth s.params r := by
  cases r with
  | req | capacity => exact BitVec.isLt _
  | xstat => exact (toNat_regValue_xstat h).symm ▸ h.xstat_fits.1
  | filler =>
    rw [toNat_regValue_filler h]
    exact h.filler_le.trans_lt Nat.lt_log2_self
  | csdbuf | lastOp | status | frame | resp | rcount | geomVer | blLen | blockSize | ccc | tranSpeedRaw | speedKbps | cSize
  | cSizeMult | r7Echo | r7Vhs => exact toNat_zext_lt _ (by decide)
  | busy | geomValid | speedValid | partialWr | r1Idle | r1EraseReset | r1IllegalCmd | r1CrcErr | r1EraseSeqErr | r1AddrErr
  | r1ParamErr | r1Ready | r1IdleOnly | ocrBusyRaw | ocrCcs | ocrVoltOk | r7Ok => exact toNat_flagWord_lt _

end Reads

/-- Settles O60: registers read as their zero extensions, flags as 0 or 1. -/
theorem readValuesAreTheRegisters : Obligations.ReadValuesAreTheRegisters := by
  intro s h
  have zext {n : Nat} (x : BitVec n) (hn : n ≤ 64 := by decide) : (x.setWidth 64 : Word).toNat = x.toNat :=
    BitVec.toNat_setWidth_of_le hn
  have busy : regValue s .busy = if s.phase = .idle then 0 else 1 := by
    by_cases hp : s.phase = .idle <;> simp [regValue, State.busy, hp, flagWord_eq]
  exact ⟨regValue_lt h, rfl, fun i => zext s.csdbuf[i], busy, zext _, zext _, toNat_regValue_xstat h,
    fun i => zext s.frame[i], fun i => zext s.resp[i], zext _, toNat_regValue_filler h,
    flagWord_eq _, zext _, rfl, zext _, zext _, zext _, zext _, zext _, flagWord_eq _, flagWord_eq _, zext _, zext _,
    flagWord_eq _, flagWord_eq _, flagWord_eq _, flagWord_eq _, flagWord_eq _, flagWord_eq _, flagWord_eq _,
    flagWord_of_iff beq_iff_eq, flagWord_of_iff beq_iff_eq, flagWord_eq _, flagWord_eq _, flagWord_of_iff (ocrVoltOk_iff _),
    zext _, (zext _).trans (toNat_r7Vhs _), flagWord_of_iff (r7Ok_iff _)⟩

end Sys2Proof.Machine
end

section
/-!
PROOFS. Noninterference of the result registers (R34). `beside u s` is the run's state `s` with the registers a running CMD.Rx
does not use taken from another state `u`; the block moves the same beside any `u`.
-/

namespace Sys2Proof.Machine

/-- `s`, with what a CMD.Rx does not use taken from `u`: CSDBUF, the geometry, the host's last read, and STATUS until the
operation ends. -/
def beside (u s : State) : State :=
  { s with
    csdbuf := u.csdbuf, geom := u.geom, readOut := u.readOut, draws := u.draws
    status := if s.phase = .idle then s.status else u.status }

@[simp] theorem beside_params (u s : State) : (beside u s).params = s.params := rfl
@[simp] theorem beside_phase (u s : State) : (beside u s).phase = s.phase := rfl
@[simp] theorem beside_req (u s : State) : (beside u s).req = s.req := rfl
@[simp] theorem beside_frame (u s : State) : (beside u s).frame = s.frame := rfl
@[simp] theorem beside_resp (u s : State) : (beside u s).resp = s.resp := rfl
@[simp] theorem beside_rcount (u s : State) : (beside u s).rcount = s.rcount := rfl
@[simp] theorem beside_filler (u s : State) : (beside u s).filler = s.filler := rfl
@[simp] theorem beside_host (u s : State) : (beside u s).host = s.host := rfl
@[simp] theorem beside_link (u s : State) : (beside u s).link = s.link := rfl

section Transactions

variable (u s : State)

theorem beside_failLink (ts : XStatus) : failLink ts (beside u s) = beside u (failLink ts s) := rfl

theorem beside_answered (t : Transaction) (rest : List LinkAnswer) :
    answered t rest (beside u s) = beside u (answered t rest s) := rfl

theorem beside_transmit (f : Bytes 6) (hb : s.phase ≠ .idle) : transmit f (beside u s) = beside u (transmit f s) := by
  unfold transmit
  cases hl : s.link with
  | nil => simp [hl]
  | cons a rest =>
    by_cases h0 : a.status = 0
    · simp [hl, h0, beside, hb, answered]
    · simp [hl, h0, beside_answered, beside_failLink]

theorem beside_countFiller (hb : s.phase ≠ .idle) : countFiller (beside u s) = beside u (countFiller s) := by
  unfold countFiller
  by_cases hm : s.params.rFillerMax < s.filler + 1 <;> simp [hm, beside, hb, finish]

theorem beside_storeStatusByte (b : Byte) (hb : s.phase ≠ .idle) :
    storeStatusByte b (beside u s) = beside u (storeStatusByte b s) := by
  unfold storeStatusByte
  by_cases ht : 0 < tailCount (reqOp s.req) <;> simp [ht, beside, hb, finish]

theorem beside_storeTailByte (b : Byte) (hb : s.phase ≠ .idle) :
    storeTailByte b (beside u s) = beside u (storeTailByte b s) := by
  unfold storeTailByte
  by_cases ht : tailCount (reqOp s.req) ≤ s.rcount.toNat <;> simp [ht, beside, hb, finish]

theorem beside_receiveStatus (hb : s.phase ≠ .idle) : receiveStatus (beside u s) = beside u (receiveStatus s) := by
  unfold receiveStatus
  cases hl : s.link with
  | nil => simp [hl]
  | cons a rest =>
    have hans : (answered .receive rest s).phase ≠ .idle := hb
    by_cases h0 : a.status = 0
    · cases h7 : a.byte[7]
      · simp [hl, h0, h7, beside_answered, beside_storeStatusByte u _ _ hans]
      · simp [hl, h0, h7, beside_answered, beside_countFiller u _ hans]
    · simp [hl, h0, beside_answered, beside_failLink]

theorem beside_receiveTail (hb : s.phase ≠ .idle) : receiveTail (beside u s) = beside u (receiveTail s) := by
  unfold receiveTail
  cases hl : s.link with
  | nil => simp [hl]
  | cons a rest =>
    have hans : (answered .receive rest s).phase ≠ .idle := hb
    by_cases h0 : a.status = 0
    · simp [hl, h0, beside_answered, beside_storeTailByte u _ _ hans]
    · simp [hl, h0, beside_answered, beside_failLink]

end Transactions

/-- The block's own move is the same beside any other registers. -/
theorem advance_beside {u s t : State} (h : advance s = .next t) : advance (beside u s) = .next (beside u t) := by
  obtain rfl := Host.Outcome.next.inj ((advance_eq s).symm.trans h)
  rw [advance_eq, beside_phase]
  cases hp : s.phase with
  | idle => rfl
  | tx => exact congrArg _ (beside_transmit u s s.frame (by simp [hp]))
  | rxStatus => exact congrArg _ (beside_receiveStatus u s (by simp [hp]))
  | rxTail => exact congrArg _ (beside_receiveTail u s (by simp [hp]))

/-- With no host action left, the step is the block's own move. -/
theorem step_of_no_host {s : State} (hh : s.host = []) : step s = advance s := by
  simp [step, hostStep, hh]

/-- With no host action left, a run is the same beside any other registers. -/
theorem runSteps_beside {u s : State} (hh : s.host = []) (n : Nat) :
    ∃ t, runSteps n s = .next t ∧ runSteps n (beside u s) = .next (beside u t) := by
  induction n generalizing s with
  | zero => exact ⟨s, rfl, rfl⟩
  | succ n ih =>
    obtain ⟨t, ht, hun, -⟩ := advance_cases s
    obtain ⟨v, hv, hv'⟩ := ih (hun.host.trans hh)
    refine ⟨v, ?_, ?_⟩
    · rw [runSteps_succ n ((step_of_no_host hh).trans ht), hv]
    · rw [runSteps_succ n ((step_of_no_host (s := beside u s) hh).trans (advance_beside ht)), hv']

/-- An idle block that no host action reaches stays as it is. -/
theorem runSteps_idle {s : State} (hp : s.phase = .idle) (hh : s.host = []) (n : Nat) : runSteps n s = .next s := by
  induction n with
  | zero => rfl
  | succ n ih =>
    have hstep : step s = .next s := by
      rw [step_of_no_host hh, advance_eq, hp]
    rw [runSteps_succ n hstep, ih]

/-- Two blocks that agree on what R34 lets an operation of the word `w` read, and on the host and the trace. -/
structure SameInputs (w : Word) (s₁ s₂ : State) : Prop where
  params : s₁.params = s₂.params
  host : s₁.host = s₂.host
  link : s₁.link = s₂.link
  wire : s₁.wire = s₂.wire
  csdbuf : reqOp w = 5 → s₁.csdbuf = s₂.csdbuf

/-- Two blocks that agree on what an operation of the word `w` leaves (the conclusion of R34). -/
structure SameResults (w : Word) (t₁ t₂ : State) : Prop where
  phase : t₁.phase = t₂.phase
  req : t₁.req = t₂.req
  lastOp : t₁.lastOp = t₂.lastOp
  xstat : t₁.xstat = t₂.xstat
  link : t₁.link = t₂.link
  wire : t₁.wire = t₂.wire
  status : t₁.phase = .idle → t₁.status = t₂.status
  command : isCommand w = true →
    t₁.frame = t₂.frame ∧ t₁.resp = t₂.resp ∧ t₁.rcount = t₂.rcount ∧ t₁.filler = t₂.filler
  frame : reservedClear w = true ∧ reqOp w = 1 → t₁.frame = t₂.frame
  geom : reservedClear w = true ∧ reqOp w = 5 → t₁.geom = t₂.geom

/-- An operation that ends in its accepting step: the latch and the status code are the same in both blocks, FRAME and the
geometry only where the operation writes them. -/
theorem SameInputs.finish_latched {w : Word} {s₁ s₂ : State} (h : SameInputs w s₁ s₂) {code₁ code₂ : Byte} {f₁ f₂ : Bytes 6}
    {g₁ g₂ : Geometry} (hcode : code₁ = code₂) (hcmd : isCommand w = false)
    (hf : reservedClear w = true ∧ reqOp w = 1 → f₁ = f₂) (hg : reservedClear w = true ∧ reqOp w = 5 → g₁ = g₂) :
    SameResults w (finish code₁ { latch w s₁ with frame := f₁, geom := g₁ })
      (finish code₂ { latch w s₂ with frame := f₂, geom := g₂ }) where
  phase := rfl
  req := rfl
  lastOp := rfl
  xstat := rfl
  link := h.link
  wire := h.wire
  status _ := hcode
  command hc := absurd hc (by simp [hcmd])
  frame := hf
  geom := hg

/-- A CSD.DECODE reads the parameters, CSDBUF and VER alone. -/
theorem execCsdDecode_congr (v : BitVec 2) (i : BitVec 6) (a : BitVec 32) {s₁ s₂ : State} (hp : s₁.params = s₂.params)
    (hc : s₁.csdbuf = s₂.csdbuf) :
    ∃ code g, execCsdDecode v i a s₁ = .next (finish code (writeGeometry g s₁)) ∧
      execCsdDecode v i a s₂ = .next (finish code (writeGeometry g s₂)) := by
  unfold execCsdDecode
  rw [hp, hc]
  split_ifs <;> exact ⟨_, _, rfl, rfl⟩

/-- What the accepting step of `w` leaves in two blocks that agree on its inputs: the operation has ended with the same results,
or it is a command, running in both on the same registers. -/
theorem SameInputs.accept {w : Word} {s₁ s₂ : State} (h : SameInputs w s₁ s₂) :
    ∃ t₁ t₂, accept w s₁ = .next t₁ ∧ accept w s₂ = .next t₂ ∧ t₁.host = s₁.host ∧ t₂.host = s₂.host ∧
      ((t₁.phase = .idle ∧ t₂.phase = .idle ∧ SameResults w t₁ t₂) ∨ (isCommand w = true ∧ t₂ = beside t₂ t₁)) := by
  rcases accept_cases w s₁ with ⟨hw, -⟩ | ⟨hr, ⟨ho, -⟩ | ⟨ho, -⟩ | ⟨ho, -⟩ | ⟨ho, -⟩⟩
  · have hno {k : BitVec 4} (hk : k.toNat < 6) := not_operation_of_refused hw hk
    exact ⟨_, _, accept_of_refused hw s₁, accept_of_refused hw s₂, rfl, rfl, .inl ⟨rfl, rfl,
      h.finish_latched (congrArg _ h.params) (isCommand_of_refused hw) (absurd · (hno (by decide)))
        (absurd · (hno (by decide)))⟩⟩
  · exact ⟨_, _, accept_of_nop hr ho s₁, accept_of_nop hr ho s₂, rfl, rfl, .inl ⟨rfl, rfl,
      h.finish_latched (congrArg _ h.params) (by simp [isCommand, ho]) (by simp [ho]) (by simp [ho])⟩⟩
  · exact ⟨_, _, accept_of_frame hr ho s₁, accept_of_frame hr ho s₂, rfl, rfl, .inl ⟨rfl, rfl,
      h.finish_latched (congrArg _ h.params) (by simp [isCommand, ho]) (fun _ => rfl) (by simp [ho])⟩⟩
  · have hcmd : isCommand w = true := (isCommand_iff w).mpr ⟨hr, ho⟩
    have hsame : startCommand (reqIdx w) (reqArg w) (latch w s₂) =
        beside s₂ (startCommand (reqIdx w) (reqArg w) (latch w s₁)) := by
      simp [startCommand, writeFrame, presetResponse, latch, beside, h.params, h.host, h.link, h.wire]
    exact ⟨_, _, accept_of_command hcmd s₁, accept_of_command hcmd s₂, rfl, rfl, .inr ⟨hcmd, hsame⟩⟩
  · obtain ⟨code, g, e₁, e₂⟩ := execCsdDecode_congr (reqVer w) (reqIdx w) (reqArg w) (s₁ := latch w s₁) (s₂ := latch w s₂)
      h.params (h.csdbuf ho)
    exact ⟨_, _, (accept_of_csdDecode hr ho s₁).trans e₁, (accept_of_csdDecode hr ho s₂).trans e₂, rfl, rfl, .inl ⟨rfl, rfl,
      h.finish_latched rfl (by simp [isCommand, ho]) (by simp [ho]) (fun _ => rfl)⟩⟩

/-- Two states that differ in what a command does not use agree on what it leaves. -/
theorem sameResults_beside {w : Word} (hc : isCommand w = true) (u t : State) : SameResults w t (beside u t) where
  phase := rfl
  req := rfl
  lastOp := rfl
  xstat := rfl
  link := rfl
  wire := rfl
  status hp := (if_pos hp).symm
  command _ := ⟨rfl, rfl, rfl, rfl⟩
  frame _ := rfl
  geom hw := by
    obtain ⟨-, ho⟩ := (isCommand_iff w).mp hc
    simp [hw.2] at ho

/-- The runs of a request in two blocks that agree on its inputs agree on its results after every number of steps (R34). -/
theorem SameInputs.runSteps {w : Word} {s₁ s₂ : State} (h : SameInputs w { s₁ with host := [] } { s₂ with host := [] })
    (hp₁ : s₁.phase = .idle) (hp₂ : s₂.phase = .idle) (hh₁ : s₁.host = [.request w]) (hh₂ : s₂.host = [.request w]) (k : Nat) :
    ∃ t₁ t₂, runSteps (k + 1) s₁ = .next t₁ ∧ runSteps (k + 1) s₂ = .next t₂ ∧ SameResults w t₁ t₂ := by
  obtain ⟨t₁, t₂, e₁, e₂, hn₁, hn₂, hend⟩ := h.accept
  rw [runSteps_succ k ((step_of_request hp₁ hh₁).trans e₁), runSteps_succ k ((step_of_request hp₂ hh₂).trans e₂)]
  rcases hend with ⟨hi₁, hi₂, hsame⟩ | ⟨hc, hbeside⟩
  · exact ⟨t₁, t₂, runSteps_idle hi₁ hn₁ k, runSteps_idle hi₂ hn₂ k, hsame⟩
  · obtain ⟨v, hv, hv'⟩ := runSteps_beside (u := t₂) hn₁ k
    rw [← hbeside] at hv'
    exact ⟨v, beside t₂ v, hv, hv', sameResults_beside hc t₂ v⟩

/-- Settles O56: the accepting step reads no result register, and from there on the block moves the same beside any of those a
running command does not use. -/
theorem noResultRegisterIsAnInput : Obligations.NoResultRegisterIsAnInput := by
  intro s₁ s₂ w k hp₁ hp₂ hh₁ hh₂ hparams hlink hwire hcsd
  have hin : SameInputs w { s₁ with host := [] } { s₂ with host := [] } := ⟨hparams, rfl, hlink, hwire, hcsd⟩
  obtain ⟨t₁, t₂, e₁, e₂, h⟩ := hin.runSteps hp₁ hp₂ hh₁ hh₂ k
  exact ⟨t₁, t₂, e₁, e₂, h.phase, h.req, h.lastOp, h.xstat, h.link, h.wire, h.status, h.command, h.frame, h.geom⟩

end Sys2Proof.Machine
end

section
/-!
PROOFS. A frame's bytes (R77, R102, R104), and the Transmit that each frame row means (R53, R76, R120).
-/

namespace Sys2Proof.Machine

/-- Start bit 0 and transmission bit 1 (R76). -/
theorem frameHead_startBits (idx : BitVec 6) : (frameHead idx).extractLsb' 6 2 = 0b01#2 := by
  decide +revert

/-- The command index is F[0][5:0] (R77). -/
theorem frameHead_index (idx : BitVec 6) : (frameHead idx).extractLsb' 0 6 = idx := by
  decide +revert

section

variable (idx : BitVec 6) (arg : BitVec 32) (crc : BitVec 7)

/-- The checksum field is F[5][7:1] (R77). -/
theorem frameBytes_crc : (frameBytes idx arg crc)[5].extractLsb' 1 7 = crc := by
  have h : ∀ c : BitVec 7, ((c.setWidth 8 <<< 1) ||| 0x01#8).extractLsb' 1 7 = c := by decide
  exact h crc

/-- The stop bit is 1 (R76). -/
theorem frameBytes_stopBit : (frameBytes idx arg crc)[5].getLsbD 0 = true := by
  simp [frameBytes]

end

/-- Settles O9: the first five bytes of a built frame are the message its checksum is taken of. -/
theorem builtFrameBytes : Obligations.BuiltFrameBytes := by
  intro idx arg
  exact ⟨rfl, rfl, rfl, rfl, rfl, rfl, frameHead_startBits idx, frameHead_index idx, frameBytes_stopBit idx arg _,
    frameBytes_crc idx arg _⟩

/-- A Transmit that is answered with status 0 has gone out, and the status byte is awaited (R120). -/
theorem transmit_of_success {s : State} {b : Byte} {rest : List LinkAnswer} (hl : s.link = { byte := b, status := 0 } :: rest)
    (f : Bytes 6) :
    transmit f s = { s with link := rest, wire := .transmit f :: s.wire, phase := .rxStatus } := by
  simp [transmit, hl, answered]

/-- Each row of the table of frames transmits the bytes of its index and argument (R83 to R85). -/
theorem exec_of_mem_frameRows {i : BitVec 6} {a : BitVec 32} {crc : BitVec 7} {row : Instr × BitVec 6 × BitVec 32}
    (hrow : row ∈ frameRows i a crc) (s : State) :
    exec row.1 s = .next (transmit (frameBytes row.2.1 row.2.2 crc) s) := by
  simp only [frameRows, List.mem_cons, List.not_mem_nil, or_false] at hrow
  rcases hrow with rfl | rfl | rfl | rfl | rfl | rfl | rfl | rfl | rfl | rfl <;> rfl

/-- Settles O16: a frame row is the Transmit of its bytes, here one that succeeds. -/
theorem frameRowsTransmitTheirBytes : Obligations.FrameRowsTransmitTheirBytes := by
  intro i a crc row hrow s b rest hl
  rw [exec_of_mem_frameRows hrow, transmit_of_success hl]
  rfl

end Sys2Proof.Machine
end

section
/-!
PROOFS. The block and the transport: an outstanding transaction that has not returned, at most one transaction in a step, and
the block's own move under an idle host.
-/

namespace Sys2Proof.Machine

/-- While the outstanding transaction has not returned, the block does not move (R63). -/
theorem advance_of_no_answer {s : State} (hl : s.link = []) : advance s = .next s := by
  obtain ⟨t, ht, -, rfl | hone⟩ := advance_cases s
  · exact ht
  · exact absurd hl hone.answered

/-- A state that steps to itself stays as it is in every run. -/
theorem runSteps_of_step_self {s : State} (h : step s = .next s) (n : Nat) : runSteps n s = .next s := by
  induction n with
  | zero => rfl
  | succ n ih => rw [runSteps_succ n h, ih]

/-- Settles O27: with no answer the block's own move changes nothing, so no number of steps does. -/
theorem unansweredTransactionKeepsTheBlockBusy : Obligations.UnansweredTransactionKeepsTheBlockBusy := by
  intro s n hb hw hl
  exact runSteps_of_step_self ((step_of_hostWaits hw hb).trans (advance_of_no_answer hl)) n

/-- Accepting a request takes no answer and makes no transaction (R240). -/
theorem accept_keeps_link_wire {w : Word} {s t : State} (h : accept w s = .next t) : t.link = s.link ∧ t.wire = s.wire := by
  have next {u : State} (e : accept w s = .next u) : t = u := Host.Outcome.next.inj (h.symm.trans e)
  rcases accept_cases w s with ⟨-, e⟩ | ⟨-, ⟨-, e⟩ | ⟨-, e⟩ | ⟨-, e⟩ | ⟨-, e⟩⟩
  case inr.inr.inr.inr =>
    obtain ⟨code, g, hd, -, -⟩ := execCsdDecode_finishes (reqVer w) (reqIdx w) (reqArg w) (latch w s)
    obtain rfl := next (e.trans hd)
    exact ⟨rfl, rfl⟩
  all_goals
    obtain rfl := next e
    exact ⟨rfl, rfl⟩

/-- From `s` to `t` no transaction is made and no answer taken, or the outstanding one is made and its answer taken (R53, R60). -/
def AtMostOneTransaction (s t : State) : Prop :=
  (t.wire = s.wire ∧ t.link = s.link) ∨ (s.phase ≠ .idle ∧ t.wire = outstanding s ++ s.wire ∧ t.link = s.link.tail)

theorem atMostOneTransaction_of_advance {s t : State} (h : advance s = .next t) : AtMostOneTransaction s t := by
  obtain ⟨u, hu, -, hone⟩ := advance_cases s
  obtain rfl := Host.Outcome.next.inj (hu.symm.trans h)
  rcases hone with rfl | hone
  · exact .inl ⟨rfl, rfl⟩
  · exact .inr ⟨hone.busy, hone.wire, hone.link⟩

/-- Reset abandons the outstanding transaction with its answer; an idle block has none (R230, R231). -/
theorem atMostOneTransaction_resetBlock (s : State) : AtMostOneTransaction s (resetBlock s) := by
  by_cases hp : s.phase = .idle
  · exact .inl (by simp [resetBlock, outstanding, State.busy, hp])
  · exact .inr (by simp [resetBlock, State.busy, hp])

/-- Settles O55: only the block's own move and a reset touch the transport, each with the one outstanding transaction. -/
theorem oneTransactionAtATime : Obligations.OneTransactionAtATime := by
  intro s t h
  cases stepEffect h with
  | own hs move => exact atMostOneTransaction_of_advance (s := { s with host := hs }) move
  | accepted w hs old new n u accepts run result =>
    subst result
    exact .inl (accept_keeps_link_wire run).symm
  | port hs c v n result =>
    subst result
    exact .inl ⟨rfl, rfl⟩
  | reset hs raised result =>
    subst result
    exact atMostOneTransaction_resetBlock { s with host := hs }

/-- The same block before another host. -/
def withHost (hs : List HostAction) (s : State) : State := { s with host := hs }

section WithHost

variable (hs : List HostAction) (s : State)

@[simp] theorem withHost_phase : (withHost hs s).phase = s.phase := rfl
@[simp] theorem withHost_frame : (withHost hs s).frame = s.frame := rfl
@[simp] theorem withHost_link : (withHost hs s).link = s.link := rfl

theorem failLink_withHost (ts : XStatus) : failLink ts (withHost hs s) = withHost hs (failLink ts s) := rfl

theorem answered_withHost (t : Transaction) (rest : List LinkAnswer) :
    answered t rest (withHost hs s) = withHost hs (answered t rest s) := rfl

theorem transmit_withHost (f : Bytes 6) : transmit f (withHost hs s) = withHost hs (transmit f s) := by
  unfold transmit
  cases hl : s.link with
  | nil => simp [hl]
  | cons a rest =>
    by_cases h0 : a.status = 0
    · simp [hl, h0, withHost, answered]
    · simp [hl, h0, answered_withHost, failLink_withHost]

theorem countFiller_withHost : countFiller (withHost hs s) = withHost hs (countFiller s) := by
  unfold countFiller
  by_cases hm : s.params.rFillerMax < s.filler + 1 <;> simp [hm, withHost, finish]

theorem storeStatusByte_withHost (b : Byte) : storeStatusByte b (withHost hs s) = withHost hs (storeStatusByte b s) := by
  unfold storeStatusByte
  by_cases ht : 0 < tailCount (reqOp s.req) <;> simp [ht, withHost, finish]

theorem storeTailByte_withHost (b : Byte) : storeTailByte b (withHost hs s) = withHost hs (storeTailByte b s) := by
  unfold storeTailByte
  by_cases ht : tailCount (reqOp s.req) ≤ s.rcount.toNat <;> simp [ht, withHost, finish]

theorem receiveStatus_withHost : receiveStatus (withHost hs s) = withHost hs (receiveStatus s) := by
  unfold receiveStatus
  cases hl : s.link with
  | nil => simp [hl]
  | cons a rest =>
    by_cases h0 : a.status = 0
    · cases h7 : a.byte[7]
      · simp [hl, h0, h7, answered_withHost, storeStatusByte_withHost]
      · simp [hl, h0, h7, answered_withHost, countFiller_withHost]
    · simp [hl, h0, answered_withHost, failLink_withHost]

theorem receiveTail_withHost : receiveTail (withHost hs s) = withHost hs (receiveTail s) := by
  unfold receiveTail
  cases hl : s.link with
  | nil => simp [hl]
  | cons a rest =>
    by_cases h0 : a.status = 0
    · simp [hl, h0, answered_withHost, storeTailByte_withHost]
    · simp [hl, h0, answered_withHost, failLink_withHost]

end WithHost

/-- The block's own move is the same before any host. -/
theorem advance_withHost (hs : List HostAction) {s t : State} (h : advance s = .next t) :
    advance (withHost hs s) = .next (withHost hs t) := by
  obtain rfl := Host.Outcome.next.inj ((advance_eq s).symm.trans h)
  rw [advance_eq, withHost_phase]
  cases s.phase with
  | idle => rfl
  | tx => exact congrArg _ (transmit_withHost hs s s.frame)
  | rxStatus => exact congrArg _ (receiveStatus_withHost hs s)
  | rxTail => exact congrArg _ (receiveTail_withHost hs s)

/-- Settles O43: both steps are the block's own move, which does not see the host. -/
theorem idleHostLeavesTheStepToTheBlock : Obligations.IdleHostLeavesTheStepToTheBlock := by
  intro s rest hh
  obtain ⟨t, ht, -, -⟩ := advance_cases { s with host := [] }
  exact ⟨t, (step_of_no_host rfl).trans ht, (step_of_idle hh).trans (advance_withHost (s := { s with host := [] }) rest ht)⟩

end Sys2Proof.Machine
end

section
/-!
PROOFS. The CSD image as bits and as one big-endian number (R57, R160).
-/

namespace Sys2Proof.Machine

/-- Bit n of a big-endian number is bit n % 8 of the byte n / 8 places from its end; past its bytes every bit is 0 (R57). -/
theorem testBit_bigEndian (l : List Byte) (n : Nat) :
    (l.foldl (fun acc x => acc * 256 + BitVec.toNat x) 0).testBit n = (l.reverse.getD (n / 8) 0).getLsbD (n % 8) := by
  induction l using List.reverseRecOn generalizing n with
  | nil => simp
  | append_singleton l x ih =>
    rw [List.foldl_concat, Nat.mul_comm, Nat.testBit_two_pow_mul_add (i := 8) _ x.isLt, List.reverse_concat]
    split
    case isTrue hlt =>
      rw [Nat.div_eq_of_lt hlt, Nat.mod_eq_of_lt hlt]
      rfl
    case isFalse hge =>
      have hdiv : n / 8 = (n - 8) / 8 + 1 := by omega
      have hmod : n % 8 = (n - 8) % 8 := by omega
      rw [ih, hdiv, hmod, List.getD_cons_succ]

/-- CSD bit n is bit n % 8 of the byte n / 8 places from the end of CSDBUF (R160). -/
theorem csdBit_eq_getD_reverse (b : Bytes 16) (n : Nat) :
    csdBit b n = (b.toList.reverse.getD (n / 8) 0).getLsbD (n % 8) := by
  unfold csdBit
  by_cases h : n < 128
  · have hi : n / 8 < 16 := by omega
    simp [h, hi, List.getD_eq_getElem?_getD]
  · have hi : ¬ n / 8 < 16 := by omega
    simp [h, hi, List.getD_eq_getElem?_getD]

theorem csdBit_of_lt {b : Bytes 16} {n : Nat} (h : n < 128) : csdBit b n = (b[15 - n / 8]'(by omega)).getLsbD (n % 8) := by
  simp [csdBit, h]

/-- A field's bits are the CSD bits from its low end up, for any field (R160). -/
theorem getLsbD_csdField (b : Bytes 16) (lo len k : Nat) :
    (csdField b lo len).getLsbD k = (decide (k < len) && csdBit b (lo + k)) := by
  by_cases h : k < len
  · simp [csdField, h]
  · simpa [h] using BitVec.getLsbD_of_ge (csdField b lo len) k (by omega)

/-- The sixteen bytes of CSDBUF as one big-endian number are the CSD, bit 0 last (R57). -/
theorem toNat_csdField_whole (b : Bytes 16) :
    (csdField b 0 128).toNat = b.toList.foldl (fun acc x => acc * 256 + x.toNat) 0 := by
  apply Nat.eq_of_testBit_eq
  intro n
  have hn : (csdField b 0 128).getLsbD n = csdBit b n := by
    rw [getLsbD_csdField, Nat.zero_add]
    by_cases h : n < 128 <;> simp [csdBit, h]
  rw [BitVec.testBit_toNat, hn, csdBit_eq_getD_reverse, testBit_bigEndian]

/-- Settles O32: bit by bit, a field against the image, and the whole image against the number its bytes spell. -/
theorem csdBitsAreBufferBits : Obligations.CsdBitsAreBufferBits := by
  intro b
  refine ⟨fun n h => csdBit_of_lt h, fun lo len k _ hk => ?_, toNat_csdField_whole b⟩
  rw [getLsbD_csdField, decide_eq_true hk, Bool.true_and]

end Sys2Proof.Machine
end

section
/-!
PROOFS. The decoder against the encoder (R70 to R77): the row that every request word and every frame decodes to, and the word
or frame that row encodes to.
-/

namespace Sys2Proof.Machine

open Laws (frameBits)

/-! ## Command frames (R76, R77, R83) -/

section

variable (idx : BitVec 6) (arg : BitVec 32) (crc : BitVec 7)

/-- A frame's start and transmission bits, index, argument, checksum and stop bit stand where R76 puts them. -/
theorem frameBits_fields :
    (frameBits idx arg crc).extractLsb' 46 2 = 0b01#2 ∧ (frameBits idx arg crc).extractLsb' 40 6 = idx ∧
    (frameBits idx arg crc).extractLsb' 8 32 = arg ∧ (frameBits idx arg crc).extractLsb' 1 7 = crc ∧
    (frameBits idx arg crc).extractLsb' 0 1 = 1#1 := by
  unfold frameBits
  refine ⟨?_, ?_, ?_, ?_, ?_⟩ <;> apply BitVec.eq_of_getLsbD_eq <;> intro k hk <;> interval_cases k <;> simp

/-- An encoded frame decodes to the row of its index and argument, whatever its checksum. -/
theorem decode_encodeFrame : decode (encodeFrame idx arg crc) = .ok (frameRow idx arg crc) := by
  obtain ⟨hstart, hidx, harg, hcrc, hstop⟩ := frameBits_fields idx arg crc
  change decodeFrame (frameBits idx arg crc) = _
  simp only [decodeFrame, hstart, hidx, harg, hcrc, hstop, ne_eq, not_true_eq_false, if_false]

/-- The row of an index and an argument encodes to their frame. -/
theorem encode_frameRow : encode (frameRow idx arg crc) = encodeFrame idx arg crc := by
  rcases frameRow_cases idx arg crc with ⟨rfl, rfl, h⟩ | ⟨rfl, rfl, h⟩ | ⟨rfl, rfl, h⟩ | ⟨rfl, rfl, h⟩ | ⟨rfl, rfl, h⟩ |
    ⟨rfl, rfl, h⟩ | ⟨rfl, rfl, h⟩ | ⟨rfl, rfl, h⟩ | ⟨rfl, rfl, h⟩ | ⟨-, h⟩ <;> rw [h] <;> rfl

/-- With its true checksum, the row of an index and an argument is well-formed. -/
theorem wf_frameRow_frameCrc : (frameRow idx arg (frameCrc idx arg)).wf = true := by
  rcases frameRow_cases idx arg (frameCrc idx arg) with ⟨rfl, rfl, h⟩ | ⟨rfl, rfl, h⟩ | ⟨rfl, rfl, h⟩ | ⟨rfl, rfl, h⟩ |
    ⟨rfl, rfl, h⟩ | ⟨rfl, rfl, h⟩ | ⟨rfl, rfl, h⟩ | ⟨rfl, rfl, h⟩ | ⟨rfl, rfl, h⟩ | ⟨hn, h⟩
  case inr.inr.inr.inr.inr.inr.inr.inr.inr => simp [h, Instr.wf, hn]
  all_goals
    rw [h]
    exact beq_self_eq_true _

/-- A frame whose index and argument have no row of their own is one of the last row (R77). -/
theorem frameRow_of_not_namedFrame (hn : namedFrame idx arg = false) : frameRow idx arg crc = .sdAnyFrame idx arg crc := by
  simp only [namedFrame, List.contains_eq_mem, decide_eq_false_iff_not, List.mem_cons, Prod.mk.injEq, List.not_mem_nil,
    or_false, not_or] at hn
  simp only [frameRow, hn, if_false]

/-- The six bytes of a frame, read as one number, are its 48 bits (R76, R77). -/
theorem frameToBits_frameBytes : frameToBits (frameBytes idx arg crc) = frameBits idx arg crc := by
  obtain ⟨hstart, hidx, harg, hcrc, hstop⟩ := frameBits_fields idx arg crc
  have hbytes := frameBytes_fields (frameBits idx arg crc) hstart hstop
  rw [hidx, harg, hcrc] at hbytes
  rw [hbytes, frameToBits_frameOfBits]

end

/-! ## Request words (R70 to R74) -/

/-- A word is refused when a reserved bit is set or its OP is none of the six (R74). -/
theorem refused_iff (w : Word) :
    (reservedClear w = false ∨ 6 ≤ (reqOp w).toNat) ↔ (6 ≤ (reqOp w).toNat ∨ reqRsv0 w ≠ 0 ∨ reqRsv1 w ≠ 0) := by
  simp only [reservedClear, Bool.and_eq_false_iff, beq_eq_false_iff_ne]
  exact or_comm

/-- A word is refused and decodes to a reserved row, or is one of the six operations with the fields of the word. -/
theorem decodeRequest_cases (w : Word) :
    ((reservedClear w = false ∨ 6 ≤ (reqOp w).toNat) ∧ decodeRequest w = decodeReserved w) ∨
    (reservedClear w = true ∧
      ((reqOp w = 0#4 ∧ decodeRequest w = .nop (reqVer w) (reqIdx w) (reqArg w)) ∨
       (reqOp w = 1#4 ∧ decodeRequest w = .frame (reqVer w) (reqIdx w) (reqArg w)) ∨
       (reqOp w = 2#4 ∧ decodeRequest w = .cmdR1 (reqVer w) (reqIdx w) (reqArg w)) ∨
       (reqOp w = 3#4 ∧ decodeRequest w = .cmdR3 (reqVer w) (reqIdx w) (reqArg w)) ∨
       (reqOp w = 4#4 ∧ decodeRequest w = .cmdR7 (reqVer w) (reqIdx w) (reqArg w)) ∨
       (reqOp w = 5#4 ∧ decodeRequest w = .csdDecode (reqVer w) (reqIdx w) (reqArg w)))) := by
  unfold decodeRequest
  have hop : ∀ o : BitVec 4, o = 0#4 ∨ o = 1#4 ∨ o = 2#4 ∨ o = 3#4 ∨ o = 4#4 ∨ o = 5#4 ∨ 6 ≤ o.toNat := by decide
  cases hr : reservedClear w with
  | false => exact .inl ⟨.inl rfl, rfl⟩
  | true =>
    rcases hop (reqOp w) with h | h | h | h | h | h | h
    case inr.inr.inr.inr.inr.inr =>
      refine .inl ⟨.inr h, ?_⟩
      have hne {k : BitVec 4} (hk : k.toNat < 6) : reqOp w ≠ k := fun he => not_operation_of_refused (.inr h) hk ⟨hr, he⟩
      simp [hne]
    all_goals simp [h]

theorem decodeRequest_of_refused {w : Word} (hw : reservedClear w = false ∨ 6 ≤ (reqOp w).toNat) :
    decodeRequest w = decodeReserved w := by
  rcases decodeRequest_cases w with ⟨-, h⟩ | ⟨hr, h⟩
  · exact h
  · rcases h with ⟨ho, -⟩ | ⟨ho, -⟩ | ⟨ho, -⟩ | ⟨ho, -⟩ | ⟨ho, -⟩ | ⟨ho, -⟩ <;>
      exact absurd ⟨hr, ho⟩ (not_operation_of_refused hw (by decide))

/-- A reserved row keeps the whole word. -/
theorem encode_decodeReserved (w : Word) : encode (decodeReserved w) = .request w := by
  unfold decodeReserved
  split_ifs <;> rfl

/-- A refused word stands in the reserved row that its OP and its reserved bits call for (R74). -/
theorem wf_decodeReserved {w : Word} (hw : reservedClear w = false ∨ 6 ≤ (reqOp w).toNat) : (decodeReserved w).wf = true := by
  unfold decodeReserved
  split_ifs with h67 h8
  · simpa [Instr.wf] using h67
  · simpa [Instr.wf] using h8
  · have h5 : (reqOp w).toNat ≤ 5 := by
      have hop : ∀ o : BitVec 4, ¬ (o = 6#4 ∨ o = 7#4) → ¬ 8 ≤ o.toNat → o.toNat ≤ 5 := by decide
      exact hop _ h67 h8
    have hr : reservedClear w = false := hw.resolve_right (by omega)
    simp [Instr.wf, h5, hr]

/-- The word of an operation has its reserved bits clear. -/
@[simp] theorem reservedClear_requestWord (op : BitVec 4) (ver : BitVec 2) (idx : BitVec 6) (arg : BitVec 32) :
    reservedClear (requestWord op ver 0#2 idx 0#18 arg) = true := by
  simp [reservedClear]

/-- A word with its reserved bits clear is the word of its operation: OP, VER, IDX and ARG are all there is to it (R70). -/
theorem encodeRequest_fields {w : Word} (hr : reservedClear w = true) :
    encodeRequest (reqOp w) (reqVer w) (reqIdx w) (reqArg w) = .request w := by
  obtain ⟨h0, h1⟩ : reqRsv0 w = 0 ∧ reqRsv1 w = 0 := by simpa [reservedClear] using hr
  have hw := requestWord_fields w
  rw [h0, h1] at hw
  exact congrArg _ hw

/-! ## The statements -/

/-- Settles O3: the six operations by their fields, the reserved rows by their words, the frame rows by `decode_encodeFrame`. -/
theorem everyInstructionDecodesFromItsCode : Obligations.EveryInstructionDecodesFromItsCode := by
  intro i hwf
  cases i with
  | nop | frame | cmdR1 | cmdR3 | cmdR7 | csdDecode => simp [encode, encodeRequest, decode, decodeRequest]
  | reservedOp67 w =>
    have hop : reqOp w = 6#4 ∨ reqOp w = 7#4 := by simpa [Instr.wf] using hwf
    have hw : 6 ≤ (reqOp w).toNat := by rcases hop with h | h <;> simp [h]
    simp [encode, decode, decodeRequest_of_refused (.inr hw), decodeReserved, hop]
  | reservedOp8F w =>
    have h8 : 8 ≤ (reqOp w).toNat := by simpa [Instr.wf] using hwf
    have hop : ¬ (reqOp w = 6#4 ∨ reqOp w = 7#4) := by rintro (h | h) <;> simp [h] at h8
    simp [encode, decode, decodeRequest_of_refused (.inr (show 6 ≤ (reqOp w).toNat by omega)), decodeReserved, hop, h8]
  | reservedOther w =>
    obtain ⟨h5, hr⟩ : (reqOp w).toNat ≤ 5 ∧ reservedClear w = false := by simpa [Instr.wf] using hwf
    have hop : ¬ (reqOp w = 6#4 ∨ reqOp w = 7#4) := by rintro (h | h) <;> simp [h] at h5
    simp [encode, decode, decodeRequest_of_refused (.inl hr), decodeReserved, hop, show ¬ 8 ≤ (reqOp w).toNat by omega]
  | sdCmd0GoIdle c => exact decode_encodeFrame 0#6 0#32 c
  | sdCmd8SendIfCond c => exact decode_encodeFrame 8#6 0x155#32 c
  | sdCmd9SendCsd c => exact decode_encodeFrame 9#6 0#32 c
  | sdCmd55AppCmd c => exact decode_encodeFrame 55#6 0#32 c
  | sdAcmd41SendOpCondV1 c => exact decode_encodeFrame 41#6 0#32 c
  | sdAcmd41SendOpCondV2 c => exact decode_encodeFrame 41#6 0x40000000#32 c
  | sdCmd58ReadOcr c => exact decode_encodeFrame 58#6 0#32 c
  | sdCmd59CrcOn c => exact decode_encodeFrame 59#6 1#32 c
  | sdCmd59CrcOff c => exact decode_encodeFrame 59#6 0#32 c
  | sdAnyFrame idx arg c =>
    obtain ⟨-, hn⟩ : c = frameCrc idx arg ∧ namedFrame idx arg = false := by simpa [Instr.wf] using hwf
    exact (decode_encodeFrame idx arg c).trans (congrArg _ (frameRow_of_not_namedFrame idx arg c hn))

/-- Settles O4: a refused word is kept whole by its reserved row, any other by its fields. -/
theorem everyRequestWordHasOneMeaning : Obligations.EveryRequestWordHasOneMeaning := by
  intro w
  rcases decodeRequest_cases w with ⟨hw, h⟩ | ⟨hr, h⟩
  · rw [h]
    exact ⟨wf_decodeReserved hw, encode_decodeReserved w⟩
  · have hcode := encodeRequest_fields hr
    rcases h with ⟨ho, h⟩ | ⟨ho, h⟩ | ⟨ho, h⟩ | ⟨ho, h⟩ | ⟨ho, h⟩ | ⟨ho, h⟩ <;>
      rw [h, ← hcode, ho] <;>
      exact ⟨rfl, rfl⟩

/-- Settles O5: the bytes of a built frame are the bits its row encodes to. -/
theorem everyBuiltFrameDecodesToItsRow : Obligations.EveryBuiltFrameDecodesToItsRow := by
  intro idx arg
  have hcode : encodeFrame idx arg (frameCrc idx arg) = .frame (frameToBits (buildFrame idx arg)) :=
    congrArg Fetched.frame (frameToBits_frameBytes idx arg (frameCrc idx arg)).symm
  rw [← hcode]
  exact ⟨decode_encodeFrame _ _ _, wf_frameRow_frameCrc _ _, encode_frameRow _ _ _⟩

/-- Settles O13: a refused word runs `refuseRequest` on the latched state; any other decodes to one of the six operations. -/
theorem refusedRequestWritesFourRegisters : Obligations.RefusedRequestWritesFourRegisters := by
  intro w s rest hp hh
  rw [← refused_iff]
  refine ⟨fun hw => ?_, fun hw => ?_⟩
  · rw [step_of_request hp hh, accept_of_refused hw]
    simp [refuseRequest, finish, latch, hp]
  · rcases decodeRequest_cases w with ⟨hw', -⟩ | ⟨-, h⟩
    · exact absurd hw' hw
    · rcases h with ⟨-, h⟩ | ⟨-, h⟩ | ⟨-, h⟩ | ⟨-, h⟩ | ⟨-, h⟩ | ⟨-, h⟩ <;> rw [h] <;> exact ⟨nofun, nofun, nofun⟩

/-- A byte that arrives with bit 7 = 0 while the status byte is awaited is stored as the status byte (R79). -/
theorem receiveStatus_of_statusByte {s : State} {b : Byte} {rest : List LinkAnswer} (hl : s.link = arrives b :: rest)
    (hb : b.getLsbD 7 = false) : receiveStatus s = storeStatusByte b (answered .receive rest s) := by
  have h7 : b[7] = false := hb
  simpa [hl, arrives, h7] using receiveStatus_cases s

/-- Settles O19: the byte is stored, and the OP in REQ says whether trailing bytes follow. -/
theorem statusByteIsStored : Obligations.StatusByteIsStored := by
  intro s b rest hp hw hl hb
  have hstep : step s = .next (storeStatusByte b (answered .receive rest s)) := by
    rw [step_of_hostWaits hw (by simp [hp]), advance_eq, hp, ← receiveStatus_of_statusByte hl hb]
  rw [hstep]
  refine ⟨fun ho => ?_, fun ho => ?_⟩
  · have ht : tailCount (reqOp s.req) = 0 := by simp [ho, tailCount]
    simpa [ht, finish, answered] using storeStatusByte_cases b (answered .receive rest s)
  · have ht : tailCount (reqOp s.req) = 4 := by rcases ho with h | h <;> simp [h, tailCount]
    simpa [ht, answered] using storeStatusByte_cases b (answered .receive rest s)

/-- Settles O1: the nine expansions and words of R87's table, evaluated. -/
theorem pseudoOperationsHaveTheirWords : Obligations.PseudoOperationsHaveTheirWords := by
  unfold Obligations.PseudoOperationsHaveTheirWords
  decide

/-- Settles O2: the fifteen words, decoded. -/
theorem wordsDecodeToTheirInstructions : Obligations.WordsDecodeToTheirInstructions := by
  unfold Obligations.WordsDecodeToTheirInstructions
  decide

/-- Settles O6: no operation's meaning mentions the fields that R73 lets it ignore. -/
theorem ignoredFieldsMakeNoDifference : Obligations.IgnoredFieldsMakeNoDifference := by
  intro v v' i i' a a' s
  exact ⟨rfl, rfl, rfl, rfl, rfl, rfl⟩

end Sys2Proof.Machine
end

section
/-!
PROOFS. CRC-7 over GF(2): the register divides the message by x^7 + x^3 + 1 (R100), and it is linear (R101).
-/

namespace Sys2Proof.Machine

/-! ## The register -/

/-- One step: shift, then add x^3 + 1 when the coefficient shifted out and the new one differ. -/
theorem crc7Bit_eq (c : BitVec 7) (b : Bool) :
    crc7Bit c b = c <<< 1 ^^^ (BitVec.ofBool (c.getLsbD 6 ^^ b)).setWidth 7 <<< 3 ^^^
      (BitVec.ofBool (c.getLsbD 6 ^^ b)).setWidth 7 := by
  unfold crc7Bit
  cases c.getLsbD 6 ^^ b
  · simp
  · simp [BitVec.xor_assoc]

/-- The five bytes go through the register in their order. -/
theorem crc7_eq (m : Bytes 5) :
    crc7 m = crc7Byte (crc7Byte (crc7Byte (crc7Byte (crc7Byte 0#7 m[0]) m[1]) m[2]) m[3]) m[4] := by
  rcases m with ⟨⟨l⟩, hl⟩
  match l, hl with
  | [_, _, _, _, _], _ => rfl

/-- The checksum of CMD0 with argument 0. -/
theorem frameCrc_cmd0 : frameCrc 0 0 = 0x4A#7 := by
  simp [frameCrc, frameMessage, frameHead, crc7_eq, crc7Byte, crc7Bit]

/-- The last byte of CMD0 with argument 0. -/
theorem buildFrame_cmd0 : (buildFrame 0 0)[5] = 0x95#8 := by
  rw [buildFrame, frameCrc_cmd0]
  rfl

/-! ## Division by the generator (R100) -/

/-- `timesGenerator` for a quotient of any width, so that a division can grow with its message. -/
def mulGenerator {n : Nat} (q : BitVec n) : BitVec (n + 7) :=
  (q.setWidth (n + 7) <<< 7) ^^^ (q.setWidth (n + 7) <<< 3) ^^^ q.setWidth (n + 7)

/-- `c` is a remainder of M(x) · x^7 divided by x^7 + x^3 + 1, for a message of any length. -/
def IsRemainder {n : Nat} (M : BitVec n) (c : BitVec 7) : Prop :=
  ∃ q : BitVec n, mulGenerator q ^^^ c.setWidth (n + 7) = M.setWidth (n + 7) <<< 7

/-- For the forty bits of a frame's message, the product is the one of the statements. -/
theorem isRemainder_iff_timesGenerator (M : BitVec 40) (c : BitVec 7) :
    IsRemainder M c ↔ ∃ q : BitVec 40, timesGenerator q ^^^ c.setWidth 47 = M.setWidth 47 <<< 7 := Iff.rfl

/-- A coefficient of a product that is above the degree of every remainder. -/
theorem getLsbD_mulGenerator_add_seven {n : Nat} (q : BitVec n) (i : Nat) :
    (mulGenerator q).getLsbD (i + 7) = ((q.getLsbD i ^^ q.getLsbD (i + 4)) ^^ q.getLsbD (i + 7)) := by
  by_cases hi : i < n
  · simp [mulGenerator, hi]
  · have hq (k : Nat) (hk : i ≤ k) : q.getLsbD k = false := BitVec.getLsbD_of_ge q k (by omega)
    simp [mulGenerator, hq]

/-- The quotient is determined from its highest coefficient down, since the generator's leading coefficient is 1. -/
theorem quotient_unique {n : Nat} {q q' : BitVec n} {c c' : BitVec 7}
    (h : mulGenerator q ^^^ c.setWidth (n + 7) = mulGenerator q' ^^^ c'.setWidth (n + 7)) (i : Nat) :
    q.getLsbD i = q'.getLsbD i := by
  by_cases hi : n ≤ i
  · rw [BitVec.getLsbD_of_ge q i hi, BitVec.getLsbD_of_ge q' i hi]
  · have hbit := congrArg (·.getLsbD (i + 7)) h
    simpa [getLsbD_mulGenerator_add_seven, quotient_unique h (i + 4), quotient_unique h (i + 7)] using hbit
termination_by n - i

/-- A message has one remainder. -/
theorem IsRemainder.unique {n : Nat} {M : BitVec n} {c c' : BitVec 7} (h : IsRemainder M c) (h' : IsRemainder M c') :
    c = c' := by
  obtain ⟨q, hq⟩ := h
  obtain ⟨q', hq'⟩ := h'
  have heq := hq.trans hq'.symm
  obtain rfl : q = q' := BitVec.eq_of_getLsbD_eq fun i _ => quotient_unique heq i
  simpa using congrArg (BitVec.setWidth 7) ((BitVec.xor_right_inj _).mp heq)

/-- The empty message has remainder 0. -/
theorem IsRemainder.nil : IsRemainder 0#0 0#7 := ⟨0#0, by decide⟩

/-- One step of the division: the message gains a coefficient, and so does the quotient. -/
theorem IsRemainder.concat {n : Nat} {M : BitVec n} {c : BitVec 7} (h : IsRemainder M c) (b : Bool) :
    IsRemainder (M.concat b) (crc7Bit c b) := by
  obtain ⟨q, hq⟩ := h
  obtain ⟨f, rfl⟩ : ∃ f, b = (c.getLsbD 6 ^^ f) := ⟨c.getLsbD 6 ^^ b, by simp⟩
  refine ⟨q.concat f, BitVec.eq_of_getLsbD_eq fun i hi => ?_⟩
  cases i with
  | zero => simp [mulGenerator, crc7Bit_eq]
  | succ j =>
    have hbit := congrArg (·.getLsbD j) hq
    by_cases hj : j < 7
    · interval_cases j <;> simp [mulGenerator, crc7Bit_eq] at hbit ⊢ <;> simp [hbit]
      -- Left is j = 6, where the message's new coefficient enters.
      cases q.getLsbD 6 <;> simp [Bool.xor_comm]
    · obtain ⟨k, rfl⟩ := Nat.exists_eq_add_of_le' (not_lt.mp hj)
      simp only [BitVec.getLsbD_xor, getLsbD_mulGenerator_add_seven] at hbit
      rw [Nat.add_right_comm k 7 1, BitVec.getLsbD_xor, getLsbD_mulGenerator_add_seven]
      simpa [Nat.add_right_comm k 1, show k < n by omega, show ¬ k + 7 + 1 < 7 by omega] using hbit

/-- A byte appended to a message is its eight bits appended, bit 7 first (R55). -/
theorem append_eq_concat {n : Nat} (M : BitVec n) (x : Byte) :
    M ++ x =
      (((((((M.concat x[7]).concat x[6]).concat x[5]).concat x[4]).concat x[3]).concat x[2]).concat x[1]).concat x[0] := by
  apply BitVec.eq_of_getLsbD_eq
  intro i hi
  by_cases h8 : i < 8
  · interval_cases i <;> simp [BitVec.getElem_append]
  · obtain ⟨k, rfl⟩ := Nat.exists_eq_add_of_le' (not_lt.mp h8)
    simp [BitVec.getLsbD_append]

/-- Eight steps of the division. -/
theorem IsRemainder.append {n : Nat} {M : BitVec n} {c : BitVec 7} (h : IsRemainder M c) (x : Byte) :
    IsRemainder (M ++ x) (crc7Byte c x) := by
  rw [append_eq_concat]
  exact (((((((h.concat _).concat _).concat _).concat _).concat _).concat _).concat _).concat _

theorem messageBits_eq_append (m : Bytes 5) :
    messageBits m = (0#0 ++ m[0] ++ m[1] ++ m[2] ++ m[3] ++ m[4]).cast rfl := by
  apply BitVec.eq_of_getLsbD_eq
  intro i hi
  simp only [messageBits, BitVec.getLsbD_cast, BitVec.getLsbD_append]
  interval_cases i <;> simp

/-- Forty steps of the division. -/
theorem isRemainder_crc7 (m : Bytes 5) : IsRemainder (messageBits m) (crc7 m) := by
  rw [messageBits_eq_append, crc7_eq]
  exact ((((IsRemainder.nil.append _).append _).append _).append _).append _

theorem isRemainder_messageBits_iff (m : Bytes 5) (c : BitVec 7) : IsRemainder (messageBits m) c ↔ crc7 m = c :=
  ⟨(isRemainder_crc7 m).unique, fun h => h ▸ isRemainder_crc7 m⟩

/-- Settles O7: the register is the remainder of the bits it has taken, and a message has one remainder. -/
theorem crcIsThePolynomialRemainder : Obligations.CrcIsThePolynomialRemainder :=
  ⟨fun m c => (isRemainder_messageBits_iff m c).symm.trans (isRemainder_iff_timesGenerator _ c), frameCrc_cmd0, buildFrame_cmd0⟩

/-! ## Linearity (R101) -/

theorem crc7Bit_xor (c d : BitVec 7) (a b : Bool) : crc7Bit (c ^^^ d) (a ^^ b) = crc7Bit c a ^^^ crc7Bit d b := by
  have hfeedback : ((c ^^^ d).getLsbD 6 ^^ (a ^^ b)) = ((c.getLsbD 6 ^^ a) ^^ (d.getLsbD 6 ^^ b)) := by
    simp only [BitVec.getLsbD_xor, Bool.xor_assoc, Bool.xor_left_comm]
  simp only [crc7Bit_eq, hfeedback, ← BitVec.ofBool_xor_ofBool, BitVec.setWidth_xor, BitVec.shiftLeft_xor_distrib]
  ac_rfl

theorem crc7Byte_xor (c d : BitVec 7) (x y : Byte) : crc7Byte (c ^^^ d) (x ^^^ y) = crc7Byte c x ^^^ crc7Byte d y := by
  simp only [crc7Byte, List.foldl_cons, List.foldl_nil, BitVec.getLsbD_xor, crc7Bit_xor]

theorem crc7_xor (a b : Bytes 5) : crc7 (Vector.zipWith (· ^^^ ·) a b) = crc7 a ^^^ crc7 b := by
  simp only [crc7_eq, Vector.getElem_zipWith, ← crc7Byte_xor, BitVec.xor_self]

/-- A frame's message is its fixed bits, which are those of CMD0, plus its index and argument (R77). -/
theorem frameMessage_eq_xor (idx : BitVec 6) (arg : BitVec 32) :
    frameMessage idx arg = Vector.zipWith (· ^^^ ·) #v[0x40, 0x00, 0x00, 0x00, 0x00]
      #v[idx.setWidth 8, arg.extractLsb' 24 8, arg.extractLsb' 16 8, arg.extractLsb' 8 8, arg.extractLsb' 0 8] := by
  have hhead : frameHead idx = 0x40#8 ^^^ idx.setWidth 8 := by decide +revert
  simp [frameMessage, hhead]

/-- Settles O8: each step of the register is linear, and a frame is the sum of its fixed bits and its fields. -/
theorem crcIsLinear : Obligations.CrcIsLinear := by
  have hfixed : crc7 #v[0x40, 0x00, 0x00, 0x00, 0x00] = 0x4A#7 := frameCrc_cmd0
  refine ⟨crc7_xor, hfixed, fun idx arg => ?_⟩
  rw [frameCrc, frameMessage_eq_xor, crc7_xor, hfixed]

end Sys2Proof.Machine
end

section
/-!
PROOFS. The accepting step (R105, R240), and what it does for NOP and FRAME (R106, R107).
-/

namespace Sys2Proof.Machine

/-- Settles O10: NOP finishes, and a word with a reserved bit set is refused. -/
theorem nopOnlyFinishes : Obligations.NopOnlyFinishes := by
  refine ⟨fun _ _ _ _ => rfl, fun w s rest ho hr hp hh => ?_, fun w s rest ho hr hp hh => ?_⟩
  · rw [step_of_request hp hh, accept_of_nop hr ho]
    simp [finish, latch, ho, hp]
  · rw [step_of_request hp hh, accept_of_refused (.inl hr)]
    simp [refuseRequest, finish, latch, ho, hp]

/-- Settles O11: FRAME builds its frame and finishes. -/
theorem frameBuildsWithoutSending : Obligations.FrameBuildsWithoutSending := by
  refine ⟨fun _ _ _ _ => rfl, fun w s rest ho hr hp hh => ?_⟩
  rw [step_of_request hp hh, accept_of_frame hr ho]
  simp [finish, writeFrame, latch, ho, hp]

/-- Settles O45: every word decodes to a well-formed instruction, and the step runs it on the latched state. -/
theorem stepRunsTheAcceptedRequest : Obligations.StepRunsTheAcceptedRequest := by
  intro s w rest i hp hh hd
  obtain rfl : decodeRequest w = i := Except.ok.inj hd
  obtain ⟨hwf, -⟩ := everyRequestWordHasOneMeaning w
  exact ⟨hwf, step_of_request hp hh⟩

end Sys2Proof.Machine
end

section
/-!
PROOFS. The accepting step of a CMD.Rx, and each transaction of one as a whole step (R120 to R124).
-/

namespace Sys2Proof.Machine

/-- Settles O14: the three operations have one accepting step, `startCommand`. -/
theorem commandsPresetAndBuildTheirFrame : Obligations.CommandsPresetAndBuildTheirFrame := by
  rintro v i a s c (rfl | rfl | rfl) <;> rfl

/-- The block that has accepted the CMD.Rx of word `w` in state `s`; the host has the actions `hs` left (R120, R240). -/
def commandStart (s : State) (w : Word) (hs : List HostAction) : State :=
  startCommand (reqIdx w) (reqArg w) (latch w { s with host := hs })

/-- A run that begins with the acceptance of a CMD.Rx goes on from phase TX (R120, R240). -/
theorem runSteps_of_command {s : State} {w : Word} {hs : List HostAction} (hp : s.phase = .idle) (hc : isCommand w = true)
    (hh : s.host = .request w :: hs) (n : Nat) :
    runSteps (n + 1) s = runSteps n (commandStart s w hs) :=
  runSteps_succ n ((step_of_request hp hh).trans (accept_of_command hc _))

/-- A failed transaction ends the block's operation, whatever its phase (R121). -/
theorem advance_of_failure {s : State} {a : LinkAnswer} {rest : List LinkAnswer} (hb : s.phase ≠ .idle)
    (hl : s.link = a :: rest) (ha : a.status ≠ 0) :
    advance s = .next (failLink a.status { s with link := rest, wire := outstanding s ++ s.wire }) := by
  rw [advance_eq]
  cases hp : s.phase with
  | idle => exact absurd hp hb
  | tx => simp [transmit, outstanding, answered, hp, hl, ha]
  | rxStatus => simp [receiveStatus, outstanding, answered, hp, hl, ha]
  | rxTail => simp [receiveTail, outstanding, answered, hp, hl, ha]

/-- With no byte stored, RESP still holds its preset (R28). -/
theorem State.Inv.resp_of_rcount_zero {s : State} (h : s.Inv) (hr : s.rcount = 0) : s.resp = Vector.replicate 5 0xFF := by
  ext1 k hk
  simpa using h.unreceived ⟨k, hk⟩ (by simp [hr])

/-- Settles O17: the step is the block's own move, and before the Transmit has returned nothing was received. -/
theorem failedTransactionEndsTheOperation : Obligations.FailedTransactionEndsTheOperation := by
  intro s a rest hb hw hl ha
  refine ⟨(step_of_hostWaits hw hb).trans (advance_of_failure hb hl ha), fun hinv hp => ?_⟩
  obtain ⟨hr, hf⟩ := hinv.sending hp
  exact ⟨hr, hf, hinv.resp_of_rcount_zero hr⟩

/-- A byte that arrives with bit 7 = 1 while the status byte is awaited is filler (R79). -/
theorem receiveStatus_of_filler {s : State} {b : Byte} {rest : List LinkAnswer} (hl : s.link = arrives b :: rest)
    (hb : b.getLsbD 7 = true) : receiveStatus s = countFiller (answered .receive rest s) := by
  have h7 : b[7] = true := hb
  simpa [hl, arrives, h7] using receiveStatus_cases s

/-- Settles O18: the byte is counted, and the count is compared with the bound. -/
theorem fillerByteIsCountedUpToTheBound : Obligations.FillerByteIsCountedUpToTheBound := by
  intro s b rest hp hw hl hb
  have hstep : step s = .next (countFiller (answered .receive rest s)) := by
    rw [step_of_hostWaits hw (by simp [hp]), advance_eq, hp, ← receiveStatus_of_filler hl hb]
  rw [hstep]
  refine ⟨fun hlt => ?_, fun hle => ?_⟩
  · simp [countFiller, answered, show ¬ s.params.rFillerMax < s.filler + 1 by omega]
  · simp [countFiller, answered, finish, show s.params.rFillerMax < s.filler + 1 by omega]

/-- A byte that arrives among the trailing bytes is stored (R123). -/
theorem receiveTail_of_byte {s : State} {b : Byte} {rest : List LinkAnswer} (hl : s.link = arrives b :: rest) :
    receiveTail s = storeTailByte b (answered .receive rest s) := by
  simp [receiveTail, hl, arrives]

/-- Settles O20: RCOUNT names the register, and the byte's value is not looked at. -/
theorem trailingBytesAreStoredUnconditionally : Obligations.TrailingBytesAreStoredUnconditionally := by
  intro s b rest k hp hw hl ho hk hr
  have hstep : step s = .next (storeTailByte b (answered .receive rest s)) := by
    rw [step_of_hostWaits hw (by simp [hp]), advance_eq, hp, ← receiveTail_of_byte hl]
  have ht : tailCount (reqOp s.req) = 4 := by rcases ho with h | h <;> simp [h, tailCount]
  have hrk : s.rcount.toNat = k.val := by
    rw [hr, BitVec.toNat_ofNat]
    omega
  have hset : s.resp.setIfInBounds s.rcount.toNat b = s.resp.set k b := by
    ext1 j hj
    simp [Vector.getElem_setIfInBounds, Vector.getElem_set, hrk]
  have hnext : s.rcount + 1 = BitVec.ofNat 3 (k.val + 1) :=
    (congrArg (· + 1) hr).trans (BitVec.ofNat_add k.val 1).symm
  rw [hstep]
  rcases storeTailByte_cases b (answered .receive rest s) with ⟨h4, e⟩ | ⟨h4, e⟩ <;>
    rw [e, answered_resp, answered_rcount, hset, hnext] <;> rw [answered_req, answered_rcount, ht, hrk] at h4
  · simp [show k.val = 4 by omega, finish, answered]
  · simp [show k.val ≠ 4 by omega, answered, hp]

end Sys2Proof.Machine
end

section
/-!
PROOFS. CMD.R7 runs as CMD.R3 does (R127): a running command reads REQ only for the number of its trailing bytes.
-/

namespace Sys2Proof.Machine

/-- The same block with the word `w` in REQ and its OP in LAST_OP. -/
def relatched (w : Word) (s : State) : State := { s with req := w, lastOp := reqOp w }

section Relatched

variable (w : Word) (s : State)

@[simp] theorem relatched_params : (relatched w s).params = s.params := rfl
@[simp] theorem relatched_phase : (relatched w s).phase = s.phase := rfl
@[simp] theorem relatched_req : (relatched w s).req = w := rfl
@[simp] theorem relatched_frame : (relatched w s).frame = s.frame := rfl
@[simp] theorem relatched_rcount : (relatched w s).rcount = s.rcount := rfl
@[simp] theorem relatched_filler : (relatched w s).filler = s.filler := rfl
@[simp] theorem relatched_host : (relatched w s).host = s.host := rfl
@[simp] theorem relatched_link : (relatched w s).link = s.link := rfl

theorem failLink_relatched (ts : XStatus) : failLink ts (relatched w s) = relatched w (failLink ts s) := rfl

theorem answered_relatched (t : Transaction) (rest : List LinkAnswer) :
    answered t rest (relatched w s) = relatched w (answered t rest s) := rfl

theorem transmit_relatched (f : Bytes 6) : transmit f (relatched w s) = relatched w (transmit f s) := by
  unfold transmit
  cases hl : s.link with
  | nil => simp [hl]
  | cons a rest =>
    by_cases h0 : a.status = 0
    · simp [hl, h0, relatched, answered]
    · simp [hl, h0, answered_relatched, failLink_relatched]

theorem countFiller_relatched : countFiller (relatched w s) = relatched w (countFiller s) := by
  by_cases hm : s.params.rFillerMax < s.filler + 1 <;> simp [countFiller, hm, relatched, finish]

variable {s} (ht : tailCount (reqOp w) = tailCount (reqOp s.req))
include ht

theorem storeStatusByte_relatched (b : Byte) : storeStatusByte b (relatched w s) = relatched w (storeStatusByte b s) := by
  by_cases hm : 0 < tailCount (reqOp s.req) <;> simp [storeStatusByte, ht, hm, relatched, finish]

theorem storeTailByte_relatched (b : Byte) : storeTailByte b (relatched w s) = relatched w (storeTailByte b s) := by
  by_cases hm : tailCount (reqOp s.req) ≤ s.rcount.toNat <;> simp [storeTailByte, ht, hm, relatched, finish]

theorem receiveStatus_relatched : receiveStatus (relatched w s) = relatched w (receiveStatus s) := by
  unfold receiveStatus
  cases hl : s.link with
  | nil => simp [hl]
  | cons a rest =>
    have hans : tailCount (reqOp w) = tailCount (reqOp (answered .receive rest s).req) := ht
    by_cases h0 : a.status = 0
    · cases h7 : a.byte[7]
      · simp [hl, h0, h7, answered_relatched, storeStatusByte_relatched w hans]
      · simp [hl, h0, h7, answered_relatched, countFiller_relatched]
    · simp [hl, h0, answered_relatched, failLink_relatched]

theorem receiveTail_relatched : receiveTail (relatched w s) = relatched w (receiveTail s) := by
  unfold receiveTail
  cases hl : s.link with
  | nil => simp [hl]
  | cons a rest =>
    have hans : tailCount (reqOp w) = tailCount (reqOp (answered .receive rest s).req) := ht
    by_cases h0 : a.status = 0
    · simp [hl, h0, answered_relatched, storeTailByte_relatched w hans]
    · simp [hl, h0, answered_relatched, failLink_relatched]

/-- The block's own move is the same under any word with as many trailing bytes. -/
theorem advance_relatched {t : State} (h : advance s = .next t) : advance (relatched w s) = .next (relatched w t) := by
  obtain rfl := Host.Outcome.next.inj ((advance_eq s).symm.trans h)
  rw [advance_eq, relatched_phase]
  cases s.phase with
  | idle => rfl
  | tx => exact congrArg _ (transmit_relatched w s s.frame)
  | rxStatus => exact congrArg _ (receiveStatus_relatched w ht)
  | rxTail => exact congrArg _ (receiveTail_relatched w ht)

end Relatched

/-- Before a host that does nothing, the step is the block's own move. -/
theorem step_of_idle_host {s : State} (hh : ∀ a ∈ s.host, a = .idle) :
    step s = advance { s with host := s.host.tail } := by
  cases hs : s.host with
  | nil => rw [step_of_no_host hs, List.tail_nil, ← hs]
  | cons a rest =>
    obtain rfl : a = .idle := hh a (by simp [hs])
    exact step_of_idle hs

/-- Before a host that does nothing, a run is the same under any word with as many trailing bytes. -/
theorem runSteps_relatched {w : Word} (n : Nat) {s : State} (hh : ∀ a ∈ s.host, a = .idle)
    (ht : tailCount (reqOp w) = tailCount (reqOp s.req)) :
    ∃ t, runSteps n s = .next t ∧ runSteps n (relatched w s) = .next (relatched w t) := by
  induction n generalizing s with
  | zero => exact ⟨s, rfl, rfl⟩
  | succ n ih =>
    obtain ⟨t, hadv, hun, -⟩ := advance_cases { s with host := s.host.tail }
    have hadv' := advance_relatched (s := { s with host := s.host.tail }) w ht hadv
    have hh' : ∀ a ∈ t.host, a = .idle := by
      rw [hun.host]
      exact fun a ha => hh a (List.mem_of_mem_tail ha)
    obtain ⟨v, hv, hv'⟩ := ih hh' (by rw [hun.req]; exact ht)
    refine ⟨v, ?_, ?_⟩
    · rw [runSteps_succ n ((step_of_idle_host hh).trans hadv), hv]
    · rw [runSteps_succ n ((step_of_idle_host (s := relatched w s) hh).trans hadv'), hv']

/-- Settles O15: the accepting steps leave the same block but for the latched word, and both words announce four trailing
bytes. -/
theorem cmdR7BehavesLikeCmdR3 : Obligations.CmdR7BehavesLikeCmdR3 := by
  intro s w w' hs k hp hr hr' ho ho' hidx harg hidle
  have hhost : ∀ a ∈ hs, a = .idle := by
    intro a ha
    have hx := List.all_eq_true.mp hidle a ha
    cases a with
    | idle => rfl
    | _ => cases hx
  have hc : isCommand w = true := (isCommand_iff w).mpr ⟨hr, .inr (.inl ho)⟩
  have hc' : isCommand w' = true := (isCommand_iff w').mpr ⟨hr', .inr (.inr ho')⟩
  have hsame : commandStart s w' hs = relatched w' (commandStart s w hs) := by
    rw [commandStart, ← hidx, ← harg]
    rfl
  obtain ⟨t, ht, ht'⟩ := runSteps_relatched (w := w') k (s := commandStart s w hs) hhost
    (by simp [commandStart, ho, ho', tailCount])
  refine ⟨t, ?_, ?_⟩
  · exact (runSteps_of_command (s := { s with host := .request w :: hs }) hp hc rfl k).trans ht
  · rw [← ho', runSteps_of_command (s := { s with host := .request w' :: hs }) hp hc' rfl k]
    exact (congrArg (runSteps k) hsame).trans ht'

end Sys2Proof.Machine
end

section
/-!
PROOFS. The runs of a CMD.Rx, row by row (R128). A command under way is named by what it has done so far (`underWay`): the bytes
stored, the fillers counted, the Receives made. Each answer of the transport moves it to the next such state, or to its end.
-/

namespace Sys2Proof.Machine

/-- The CMD.Rx of word `w`, accepted in state `s`, in phase `p` after its Transmit: it has stored the bytes `stored`, counted
`f` fillers and made `rx` Receives, and the transport's coming answers are `link`. -/
def underWay (s : State) (w : Word) (hs : List HostAction) (link : List LinkAnswer) (p : Phase) (stored : List Byte)
    (f rx : Nat) : State :=
  { commandEnd s w hs link s.status 0 stored f rx with phase := p }

/-- The CMD.Rx of word `w` after a stored byte: complete, or waiting for the next trailing byte. -/
def afterStored (s : State) (w : Word) (hs : List HostAction) (link : List LinkAnswer) (stored : List Byte) (f rx : Nat) :
    State :=
  if stored.length = 1 + tailCount (reqOp w) then commandEnd s w hs link s.params.stOk 0 stored f rx
  else underWay s w hs link .rxTail stored f rx

theorem respOf_nil : respOf [] = Vector.replicate 5 0xFF := by decide

/-- One more byte is stored in the next byte of RESP (R28). -/
theorem respOf_append (bs : List Byte) (b : Byte) (h : bs.length < 5) :
    respOf (bs ++ [b]) = (respOf bs).set bs.length b := by
  ext1 k hk
  simp only [respOf, Vector.getElem_ofFn, Vector.getElem_set, List.getD_eq_getElem?_getD]
  rcases lt_trichotomy k bs.length with hlt | rfl | hgt
  · simp [List.getElem?_append_left hlt, hlt.ne']
  · simp
  · simp [List.getElem?_append_right hgt.le, List.getElem?_eq_none hgt.le, hgt.ne, show k - bs.length ≠ 0 by omega]

/-- A CMD.Rx has no trailing byte or four (R120). -/
theorem tailCount_of_command {w : Word} (hc : isCommand w = true) :
    (reqOp w = 2 ∧ tailCount (reqOp w) = 0) ∨ ((reqOp w = 3 ∨ reqOp w = 4) ∧ tailCount (reqOp w) = 4) := by
  obtain ⟨-, h | h | h⟩ := (isCommand_iff w).mp hc <;> simp [h, tailCount]

section Runs

variable {s : State} {w : Word} {hs : List HostAction}

/-- The acceptance and a Transmit that succeeds: the status byte is awaited. -/
theorem runSteps_two_of_command (hp : s.phase = .idle) (hc : isCommand w = true) (hh : s.host = .request w :: hs)
    (hw : hostWaits hs = true) {b : Byte} {link : List LinkAnswer} (hl : s.link = arrives b :: link) :
    runSteps 2 s = .next (underWay s w hs link .rxStatus [] 0 0) := by
  have hstep : step (commandStart s w hs) = .next (transmit (commandStart s w hs).frame (commandStart s w hs)) := by
    rw [step_of_hostWaits hw (by simp [commandStart]), advance_eq]
    rfl
  rw [runSteps_of_command hp hc hh 1, runSteps_succ 0 hstep, transmit_of_success (s := commandStart s w hs) hl]
  simp [runSteps, commandStart, startCommand, writeFrame, presetResponse, latch, underWay, commandEnd, respOf_nil]

variable (hw : hostWaits hs = true)
include hw

/-- A tolerated filler (R122). -/
theorem step_of_filler {b : Byte} (hb : b.getLsbD 7 = true) {f : Nat} (hf : f < s.params.rFillerMax) (link : List LinkAnswer)
    (rx : Nat) :
    step (underWay s w hs (arrives b :: link) .rxStatus [] f rx) = .next (underWay s w hs link .rxStatus [] (f + 1) (rx + 1)) :=
  (fillerByteIsCountedUpToTheBound (underWay s w hs (arrives b :: link) .rxStatus [] f rx) b link rfl hw rfl hb).1 hf

/-- The filler past the bound (R122). -/
theorem step_of_excess_filler {b : Byte} (hb : b.getLsbD 7 = true) {f : Nat} (hf : s.params.rFillerMax ≤ f)
    (link : List LinkAnswer) (rx : Nat) :
    step (underWay s w hs (arrives b :: link) .rxStatus [] f rx) =
      .next (commandEnd s w hs link s.params.stTimeout 0 [] (f + 1) (rx + 1)) :=
  (fillerByteIsCountedUpToTheBound (underWay s w hs (arrives b :: link) .rxStatus [] f rx) b link rfl hw rfl hb).2 hf

/-- As many fillers as are tolerated. -/
theorem runSteps_of_fillers {fs : List Byte} (hfs : ∀ x ∈ fs, x.getLsbD 7 = true) {f : Nat}
    (hf : f + fs.length ≤ s.params.rFillerMax) (link : List LinkAnswer) (rx : Nat) :
    runSteps fs.length (underWay s w hs (fs.map arrives ++ link) .rxStatus [] f rx) =
      .next (underWay s w hs link .rxStatus [] (f + fs.length) (rx + fs.length)) := by
  induction fs generalizing f rx with
  | nil => rfl
  | cons x fs ih =>
    rw [List.length_cons] at hf
    have hx := step_of_filler (s := s) (w := w) hw (hfs x (by simp)) (show f < s.params.rFillerMax by omega)
      (fs.map arrives ++ link) rx
    refine (runSteps_succ fs.length hx).trans ((ih (fun y hy => hfs y (by simp [hy])) (by omega) (rx + 1)).trans ?_)
    rw [List.length_cons, Nat.add_right_comm f, Nat.add_right_comm rx]
    rfl

/-- A Receive that fails, of the status byte or of a trailing byte (R121). -/
theorem step_of_failed_receive {p : Phase} (hp : p = .rxStatus ∨ p = .rxTail) {a : LinkAnswer} (ha : a.status ≠ 0)
    (link : List LinkAnswer) (stored : List Byte) (f rx : Nat) :
    step (underWay s w hs (a :: link) p stored f rx) =
      .next (commandEnd s w hs link s.params.stError a.status stored f (rx + 1)) := by
  have hb : p ≠ .idle := by rcases hp with rfl | rfl <;> simp
  rw [(failedTransactionEndsTheOperation (underWay s w hs (a :: link) p stored f rx) a link hb hw rfl ha).1]
  rcases hp with rfl | rfl <;> rfl

/-- The status byte (R79, R120). -/
theorem step_of_status_byte (hc : isCommand w = true) {st : Byte} (hst : st.getLsbD 7 = false) (link : List LinkAnswer)
    (f rx : Nat) :
    step (underWay s w hs (arrives st :: link) .rxStatus [] f rx) = .next (afterStored s w hs link [st] f (rx + 1)) := by
  have hresp : (respOf []).set 0 st = respOf [st] := (respOf_append [] st (by simp)).symm
  obtain ⟨hr1, hr3⟩ := statusByteIsStored (underWay s w hs (arrives st :: link) .rxStatus [] f rx) st link rfl hw rfl hst
  rcases tailCount_of_command hc with ⟨ho, ht⟩ | ⟨ho, ht⟩
  · rw [hr1 ho]
    simp [afterStored, ht, underWay, commandEnd, hresp, List.replicate_succ]
  · rw [hr3 ho]
    simp [afterStored, ht, underWay, commandEnd, hresp, List.replicate_succ]

/-- A trailing byte (R123). -/
theorem step_of_trailing_byte (hc : isCommand w = true) {stored : List Byte} (h1 : 1 ≤ stored.length)
    (hn : stored.length ≤ tailCount (reqOp w)) (b : Byte) (link : List LinkAnswer) (f rx : Nat) :
    step (afterStored s w hs (arrives b :: link) stored f rx) = .next (afterStored s w hs link (stored ++ [b]) f (rx + 1)) := by
  obtain ⟨-, ht⟩ | ⟨ho, ht⟩ := tailCount_of_command hc
  · omega
  have hbusy (l : List LinkAnswer) : afterStored s w hs l stored f rx = underWay s w hs l .rxTail stored f rx :=
    if_neg (by omega)
  rw [hbusy, trailingBytesAreStoredUnconditionally (underWay s w hs (arrives b :: link) .rxTail stored f rx) b link
    ⟨stored.length, by omega⟩ rfl hw rfl ho h1 rfl]
  by_cases h4 : stored.length = 4
  · simp [afterStored, ht, h4, underWay, commandEnd, respOf_append, List.replicate_succ]
  · simp [afterStored, ht, h4, underWay, commandEnd, respOf_append, List.replicate_succ, show stored.length < 5 by omega]

/-- Some of the trailing bytes, or all. -/
theorem runSteps_of_trailing_bytes (hc : isCommand w = true) {stored : List Byte} (h1 : 1 ≤ stored.length) {tail : List Byte}
    (hn : stored.length + tail.length ≤ 1 + tailCount (reqOp w)) (link : List LinkAnswer) (f rx : Nat) :
    runSteps tail.length (afterStored s w hs (tail.map arrives ++ link) stored f rx) =
      .next (afterStored s w hs link (stored ++ tail) f (rx + tail.length)) := by
  induction tail generalizing stored rx with
  | nil => simp [runSteps]
  | cons b tail ih =>
    rw [List.length_cons] at hn
    have hb := step_of_trailing_byte (s := s) (hs := hs) hw hc h1 (by omega) b (tail.map arrives ++ link) f rx
    refine (runSteps_succ tail.length hb).trans ((ih (by simp) (by simp; omega) (rx + 1)).trans ?_)
    rw [List.append_assoc, List.length_cons, Nat.add_right_comm rx]
    rfl

variable (hp : s.phase = .idle) (hc : isCommand w = true) (hh : s.host = .request w :: hs)
include hp hc hh

/-- A CMD.Rx up to its status byte: acceptance, Transmit, and the tolerated fillers. -/
theorem runSteps_to_status_byte {fs : List Byte} (hfs : ∀ x ∈ fs, x.getLsbD 7 = true) (hf : fs.length ≤ s.params.rFillerMax)
    {b : Byte} {link : List LinkAnswer} (hl : s.link = arrives b :: (fs.map arrives ++ link)) :
    runSteps (2 + fs.length) s = .next (underWay s w hs link .rxStatus [] fs.length fs.length) := by
  rw [runSteps_add 2 fs.length (runSteps_two_of_command hp hc hh hw hl), runSteps_of_fillers hw hfs (by omega), Nat.zero_add]

/-- A CMD.Rx up to some trailing byte, or to the last: the status byte and the bytes `tail` have come. -/
theorem runSteps_to_trailing_byte {fs : List Byte} (hfs : ∀ x ∈ fs, x.getLsbD 7 = true)
    (hf : fs.length ≤ s.params.rFillerMax) {st : Byte} (hst : st.getLsbD 7 = false) {tail : List Byte}
    (hn : tail.length ≤ tailCount (reqOp w)) {b : Byte} {link : List LinkAnswer}
    (hl : s.link = arrives b :: (fs.map arrives ++ arrives st :: (tail.map arrives ++ link))) :
    runSteps (2 + fs.length + (1 + tail.length)) s =
      .next (afterStored s w hs link (st :: tail) fs.length (fs.length + 1 + tail.length)) := by
  rw [runSteps_add _ _ (runSteps_to_status_byte hw hp hc hh hfs hf hl), Nat.add_comm 1,
    runSteps_succ _ (step_of_status_byte hw hc hst _ _ _),
    runSteps_of_trailing_bytes hw hc (by simp) (by simpa [Nat.add_comm] using hn), List.singleton_append]

end Runs

/-- Settles O21: the last of the bytes awaited completes the command. -/
theorem commandCompletes : Obligations.CommandCompletes := by
  intro s w hs b fs st tail rest hp hc hh hw hfs hf hst hn hl
  have hrun := runSteps_to_trailing_byte hw hp hc hh hfs hf hst hn.le hl
  rw [show fs.length + tail.length + 3 = 2 + fs.length + (1 + tail.length) by omega, hrun, afterStored,
    if_pos (by rw [List.length_cons, hn, Nat.add_comm])]

/-- Settles O22: the last filler is the one past the bound. -/
theorem commandTimesOut : Obligations.CommandTimesOut := by
  intro s w hs b fs rest hp hc hh hw hfs hf hl
  obtain rfl | ⟨fs, x, rfl⟩ := List.eq_nil_or_concat' fs
  · simp at hf
  rw [List.length_append, List.length_singleton] at hf ⊢
  rw [List.map_append, List.append_assoc, List.map_singleton, List.singleton_append] at hl
  have hrun := runSteps_to_status_byte hw hp hc hh (fun y hy => hfs y (by simp [hy])) (by omega) hl
  rw [show fs.length + 1 + 2 = 2 + fs.length + 1 by omega, runSteps_add _ 1 hrun,
    runSteps_succ 0 (step_of_excess_filler hw (hfs x (by simp)) (by omega) _ _), ← hf]
  rfl

/-- Settles O23: the step after the acceptance is the failed Transmit. -/
theorem commandFailsInTransmit : Obligations.CommandFailsInTransmit := by
  intro s w hs a rest hp hc hh hw ha hl
  obtain ⟨hstep, -⟩ := failedTransactionEndsTheOperation (commandStart s w hs) a rest (by simp [commandStart]) hw hl ha
  rw [runSteps_of_command hp hc hh 1, runSteps_succ 0 hstep]
  simp [runSteps, commandStart, startCommand, writeFrame, presetResponse, latch, outstanding, commandEnd, respOf_nil]

/-- Settles O24: the Receive after the fillers fails. -/
theorem commandFailsBeforeTheStatusByte : Obligations.CommandFailsBeforeTheStatusByte := by
  intro s w hs b fs a rest hp hc hh hw hfs hf ha hl
  rw [show fs.length + 3 = 2 + fs.length + 1 by omega, runSteps_add _ 1 (runSteps_to_status_byte hw hp hc hh hfs hf hl),
    runSteps_succ 0 (step_of_failed_receive hw (.inl rfl) ha _ _ _ _)]
  rfl

/-- Settles O25: the Receive after the stored bytes fails. -/
theorem commandFailsInTheTail : Obligations.CommandFailsInTheTail := by
  intro s w hs b fs st tail a rest hp hc hh hw hfs hf hst hn ha hl
  have hrun := runSteps_to_trailing_byte hw hp hc hh hfs hf hst hn.le hl
  rw [afterStored, if_neg (by rw [List.length_cons]; omega)] at hrun
  rw [show fs.length + tail.length + 4 = 2 + fs.length + (1 + tail.length) + 1 by omega, runSteps_add _ 1 hrun,
    runSteps_succ 0 (step_of_failed_receive hw (.inr rfl) ha _ _ _ _),
    show fs.length + 2 + tail.length = fs.length + 1 + tail.length + 1 by omega]
  rfl

end Sys2Proof.Machine
end

section
/-!
PROOFS. A CMD.Rx is bounded (R129): each answered transaction lowers the number of transactions it may still make.
-/

namespace Sys2Proof.Machine

/-- How many transactions the operation may still make: the Transmit, the fillers still tolerated, the Receive that ends them, and
the trailing bytes (R129). -/
def transactionsLeft (s : State) : Nat :=
  match s.phase with
  | .idle => 0
  | .tx => s.params.rFillerMax - s.filler + 6
  | .rxStatus => s.params.rFillerMax - s.filler + 5
  | .rxTail => 4 - s.rcount.toNat + 1

@[simp] theorem transactionsLeft_finish (code : Byte) (s : State) : transactionsLeft (finish code s) = 0 := rfl
@[simp] theorem transactionsLeft_failLink (ts : XStatus) (s : State) : transactionsLeft (failLink ts s) = 0 := rfl

theorem transactionsLeft_pos {s : State} (hb : s.phase ≠ .idle) : 0 < transactionsLeft s := by
  unfold transactionsLeft
  cases hp : s.phase <;> simp_all

theorem tailCount_le (op : BitVec 4) : tailCount op ≤ 4 := by
  unfold tailCount
  split <;> simp

/-- Every answered transaction is one less to make. -/
theorem transactionsLeft_advance {s t : State} (hb : s.phase ≠ .idle) (hl : s.link ≠ []) (h : advance s = .next t) :
    transactionsLeft t < transactionsLeft s := by
  obtain rfl := Host.Outcome.next.inj ((advance_eq s).symm.trans h)
  cases hp : s.phase with
  | idle => exact absurd hp hb
  | tx =>
    rcases transmit_cases s.frame s with ⟨h0, -⟩ | ⟨a, rest, -, ⟨-, e⟩ | ⟨-, e⟩⟩
    · exact absurd h0 hl
    · simp [e, transactionsLeft_pos hb]
    · simp [e, transactionsLeft, hp]
  | rxStatus =>
    rcases receiveStatus_cases s with ⟨h0, -⟩ | ⟨a, rest, -, ⟨-, e⟩ | ⟨-, -, e⟩ | ⟨-, -, e⟩⟩
    · exact absurd h0 hl
    · simp [e, transactionsLeft_pos hb]
    · rcases countFiller_cases (answered .receive rest s) with ⟨hm, e'⟩ | ⟨-, e'⟩
      · simp only [answered_params, answered_filler] at hm
        simp only [e, e', transactionsLeft, answered_phase, answered_params, answered_filler, hp]
        omega
      · simp [e, e', transactionsLeft_pos hb]
    · rcases storeStatusByte_cases a.byte (answered .receive rest s) with ⟨-, e'⟩ | ⟨-, e'⟩
      · simp [e, e', transactionsLeft, hp]
      · simp [e, e', transactionsLeft_pos hb]
  | rxTail =>
    rcases receiveTail_cases s with ⟨h0, -⟩ | ⟨a, rest, -, ⟨-, e⟩ | ⟨-, e⟩⟩
    · exact absurd h0 hl
    · simp [e, transactionsLeft_pos hb]
    · rcases storeTailByte_cases a.byte (answered .receive rest s) with ⟨-, e'⟩ | ⟨hm, e'⟩
      · simp [e, e', transactionsLeft_pos hb]
      · have hr : s.rcount.toNat < 4 := hm.trans_le (tailCount_le _)
        have hr' : (s.rcount + 1).toNat = s.rcount.toNat + 1 := by
          rw [BitVec.toNat_add]
          exact Nat.mod_eq_of_lt (show s.rcount.toNat + 1 < 8 by omega)
        simp only [e, e', transactionsLeft, answered_phase, answered_rcount, hp, hr']
        omega

/-- `t` is where the operation running in `s` ends, `n` steps and as many answered transactions later. -/
structure EndsAfter (n : Nat) (s t : State) : Prop where
  run : runSteps n s = .next t
  idle : t.phase = .idle
  host : t.host = s.host
  wire : ∃ ts : List Transaction, ts.length = n ∧ t.wire = ts ++ s.wire
  link : t.link = s.link.drop n

theorem EndsAfter.zero {s : State} (hp : s.phase = .idle) : EndsAfter 0 s s := ⟨rfl, hp, rfl, ⟨[], rfl, rfl⟩, rfl⟩

theorem length_outstanding {s : State} (hb : s.phase ≠ .idle) : (outstanding s).length = 1 := by
  unfold outstanding
  cases hp : s.phase <;> simp_all

/-- A transaction comes before the rest of the operation. -/
theorem EndsAfter.cons {n : Nat} {s t u : State} (hstep : step s = .next t) (hone : OneTransaction s t) (hh : t.host = s.host)
    (h : EndsAfter n t u) : EndsAfter (n + 1) s u where
  run := (runSteps_succ n hstep).trans h.run
  idle := h.idle
  host := h.host.trans hh
  wire := by
    obtain ⟨ts, hn, hts⟩ := h.wire
    exact ⟨ts ++ outstanding s, by simp [hn, length_outstanding hone.busy], by rw [hts, hone.wire, List.append_assoc]⟩
  link := by rw [h.link, hone.link, List.drop_tail]

/-- With an answer for every transaction it may still make, an operation ends. -/
theorem endsAfter_of_answers (m : Nat) {s : State} (hm : transactionsLeft s ≤ m) (hw : hostWaits s.host = true)
    (hl : m ≤ s.link.length) : ∃ n ≤ m, ∃ t, EndsAfter n s t := by
  induction m generalizing s with
  | zero =>
    have hp : s.phase = .idle := by
      by_contra hb
      have hpos := transactionsLeft_pos hb
      omega
    exact ⟨0, le_rfl, s, .zero hp⟩
  | succ m ih =>
    by_cases hp : s.phase = .idle
    · exact ⟨0, Nat.zero_le _, s, .zero hp⟩
    · have hne : s.link ≠ [] := List.ne_nil_of_length_pos (by omega)
      obtain ⟨t, hadv, hun, hmove⟩ := advance_cases s
      have hlt := transactionsLeft_advance hp hne hadv
      have hone : OneTransaction s t := hmove.resolve_left (by rintro rfl; omega)
      obtain ⟨n, hn, u, hu⟩ := ih (s := t) (by omega) (hun.host ▸ hw) (by rw [hone.link, List.length_tail]; omega)
      exact ⟨n + 1, by omega, u, hu.cons ((step_of_hostWaits hw hp).trans hadv) hone hun.host⟩

/-- Settles O26: after its acceptance a CMD.Rx has at most `R_FILLER_MAX + 6` transactions to make. -/
theorem commandIsBounded : Obligations.CommandIsBounded := by
  intro s w hs hp hc hh hw hl
  obtain ⟨n, hn, t, h⟩ := endsAfter_of_answers (s.params.rFillerMax + 6) (s := commandStart s w hs)
    (by simp [transactionsLeft, commandStart]) hw hl
  obtain ⟨ts, hts, hwire⟩ := h.wire
  exact ⟨n, ts, t, (runSteps_of_command hp hc hh n).trans h.run, h.idle, h.host, hn, hts, hwire, h.link⟩

end Sys2Proof.Machine
end

section
/-!
PROOFS. The response fields (R130 to R134), and when a host may use them (R131, R244).
-/

namespace Sys2Proof.Machine

/-- Settles O28: each flag is its bit, and 0xFF has every bit set. -/
theorem r1FlagsAreStatusBits : Obligations.R1FlagsAreStatusBits := by
  intro r
  refine ⟨rfl, rfl, rfl, rfl, rfl, rfl, rfl, beq_iff_eq, beq_iff_eq, fun h => ?_⟩
  simp [r1Idle, r1EraseReset, r1IllegalCmd, r1CrcErr, r1EraseSeqErr, r1AddrErr, r1ParamErr, r1Ready, r1IdleOnly, h]

section Payload

variable (r : Bytes 5)

/-- The payload's bytes, RESP[1] first (R56, R81, R82). -/
theorem respPayload_bytes :
    (respPayload r).extractLsb' 24 8 = r[1] ∧ (respPayload r).extractLsb' 16 8 = r[2] ∧
    (respPayload r).extractLsb' 8 8 = r[3] ∧ (respPayload r).extractLsb' 0 8 = r[4] := by
  refine ⟨?_, ?_, ?_, ?_⟩
  all_goals
    apply BitVec.eq_of_getLsbD_eq
    intro i hi
    interval_cases i <;> simp [respPayload]

theorem bitVec32_eq_iff_bytes (x y : BitVec 32) :
    x = y ↔ x.extractLsb' 24 8 = y.extractLsb' 24 8 ∧ x.extractLsb' 16 8 = y.extractLsb' 16 8 ∧
      x.extractLsb' 8 8 = y.extractLsb' 8 8 ∧ x.extractLsb' 0 8 = y.extractLsb' 0 8 := by
  simp only [BitVec.toNat_eq, BitVec.extractLsb'_toNat, Nat.shiftRight_eq_div_pow]
  omega

/-- A mask is compared with the payload byte by byte. -/
theorem respPayload_and_eq_iff (m c : BitVec 32) :
    respPayload r &&& m = c ↔
      r[1] &&& m.extractLsb' 24 8 = c.extractLsb' 24 8 ∧ r[2] &&& m.extractLsb' 16 8 = c.extractLsb' 16 8 ∧
      r[3] &&& m.extractLsb' 8 8 = c.extractLsb' 8 8 ∧ r[4] &&& m.extractLsb' 0 8 = c.extractLsb' 0 8 := by
  obtain ⟨h1, h2, h3, h4⟩ := respPayload_bytes r
  rw [bitVec32_eq_iff_bytes]
  simp only [BitVec.extractLsb'_and, h1, h2, h3, h4]

end Payload

theorem and_0x80_eq_iff (b : Byte) : b &&& 0x80 = 0x80 ↔ b.getLsbD 7 = true := by
  decide +revert

theorem and_0x0F_eq_iff (b : Byte) : b &&& 0x0F = 0x01 ↔ b.extractLsb' 0 4 = 1 := by
  decide +revert

/-- Settles O29: the OCR's bits 20:16 and 15 are five bits of RESP[2] and one of RESP[3]. -/
theorem ocrFieldsAreOcrBits : Obligations.OcrFieldsAreOcrBits := by
  intro r
  have hvolt : ocrVoltOk r = true ↔ r[2] &&& 0x1F = 0x1F ∧ r[3].getLsbD 7 = true := by
    rw [ocrVoltOk, Bool.and_eq_true, beq_iff_eq]
  have hmask : respPayload r &&& 0x001F8000#32 = 0x001F8000#32 ↔
      r[1] &&& 0x00 = 0x00 ∧ r[2] &&& 0x1F = 0x1F ∧ r[3] &&& 0x80 = 0x80 ∧ r[4] &&& 0x00 = 0x00 :=
    respPayload_and_eq_iff r _ _
  refine ⟨?_, ?_, ?_, hvolt⟩
  · rw [ocrBusyRaw, ← (respPayload_bytes r).1]
    simp
  · rw [ocrCcs, ← (respPayload_bytes r).1]
    simp
  · rw [hvolt, hmask, and_0x80_eq_iff]
    exact ⟨fun ⟨h2, h3⟩ => ⟨BitVec.and_zero, h2, h3, BitVec.and_zero⟩, fun ⟨_, h2, h3, _⟩ => ⟨h2, h3⟩⟩

/-- Settles O30: the payload's low twelve bits are four bits of RESP[3] and RESP[4]. -/
theorem r7FieldsArePayloadBits : Obligations.R7FieldsArePayloadBits := by
  intro r
  obtain ⟨-, -, h3, h4⟩ := respPayload_bytes r
  have hok : r7Ok r = true ↔ r7Echo r = 0x55 ∧ r7Vhs r = 1 := by
    rw [r7Ok, Bool.and_eq_true, beq_iff_eq, beq_iff_eq]
  have hmask : respPayload r &&& 0x00000FFF#32 = 0x00000155#32 ↔
      r[1] &&& 0x00 = 0x00 ∧ r[2] &&& 0x00 = 0x00 ∧ r[3] &&& 0x0F = 0x01 ∧ r[4] &&& BitVec.allOnes 8 = 0x55 :=
    respPayload_and_eq_iff r _ _
  refine ⟨h4.symm, ?_, hok, ?_⟩
  · rw [r7Vhs, ← h3]
    apply BitVec.eq_of_getLsbD_eq
    intro i hi
    simp [hi, show i < 8 by omega]
  · rw [hok, hmask, and_0x0F_eq_iff, BitVec.and_allOnes]
    exact ⟨fun ⟨he, hv⟩ => ⟨BitVec.and_zero, BitVec.and_zero, hv, he⟩, fun ⟨_, _, hv, he⟩ => ⟨he, hv⟩⟩

/-- Settles O31: RCOUNT counts the bytes of a whole response, one after a CMD.R1 and five after a CMD.R3 or CMD.R7, and after
any other end STATUS is not ST_OK. -/
theorem fieldsAreUsableAfterTheirOwnResponse : Obligations.FieldsAreUsableAfterTheirOwnResponse := by
  intro s w hs rest code ts st tail stored f rx hc
  refine ⟨fun hn => ?_, fun hcode => ?_⟩
  · rcases tailCount_of_command hc with ⟨ho, ht⟩ | ⟨ho | ho, ht⟩ <;> rw [ht] at hn <;>
      simp [r1Usable, ocrUsable, r7Usable, commandEnd, State.busy, hn, ho]
  · simp [r1Usable, ocrUsable, r7Usable, commandEnd, hcode]

end Sys2Proof.Machine
end

section
/-!
PROOFS. CSD.DECODE: where the fields of the CSD image lie in its bytes (R160, R162), the speed tables (R164 to R167), and what a
decode of each version leaves (R168 to R179).
-/

namespace Sys2Proof.Machine

/-! ## The fields of an image -/

/-- A field lies in the bits it names and no others (R162). -/
theorem csdField_congr {b c : Bytes 16} {lo n : Nat} (h : ∀ m, lo ≤ m → m < lo + n → csdBit b m = csdBit c m) :
    csdField b lo n = csdField c lo n := by
  apply BitVec.eq_of_getLsbD_eq
  intro k hk
  rw [getLsbD_csdField, getLsbD_csdField, h (lo + k) (by omega) (by omega)]

/-- A field that spans several bytes is its high part beside its low part. -/
theorem csdField_add (b : Bytes 16) (lo m n : Nat) :
    csdField b lo (m + n) = csdField b (lo + n) m ++ csdField b lo n := by
  apply BitVec.eq_of_getLsbD_eq
  intro k hk
  rw [BitVec.getLsbD_append]
  simp only [getLsbD_csdField]
  by_cases hn : k < n
  · simp [hn, hk]
  · simp [hn, hk, show k - n < m by omega, show lo + n + (k - n) = lo + k by omega]

/-- A field inside byte `i` of the image is a field of that byte; `j` is its low end there (R160). -/
theorem csdField_of_byte (b : Bytes 16) (i j : Nat) {n : Nat} (hi : i < 16 := by decide) (hj : j + n ≤ 8 := by decide) :
    csdField b (8 * (15 - i) + j) n = b[i].extractLsb' j n := by
  apply BitVec.eq_of_getLsbD_eq
  intro k hk
  have hbyte : 15 - (8 * (15 - i) + j + k) / 8 = i := by omega
  have hbit : (8 * (15 - i) + j + k) % 8 = j + k := by omega
  rw [getLsbD_csdField, csdBit_of_lt (by omega)]
  simp [hbyte, hbit]

theorem csdField_whole_byte (b : Bytes 16) (i : Nat) (hi : i < 16 := by decide) : csdField b (8 * (15 - i)) 8 = b[i] :=
  (csdField_of_byte b i 0 hi).trans BitVec.extractLsb'_eq_self

section Fields

variable (b : Bytes 16)

theorem csdTranSpeed_eq : csdTranSpeed b = b[3] :=
  csdField_whole_byte b 3

theorem csdCcc_eq : csdCcc b = (b[4].setWidth 12 <<< 4) ||| (b[5] >>> 4).setWidth 12 := by
  have hhigh : csdField b 88 8 = b[4] := csdField_whole_byte b 4
  have hlow : csdField b 84 4 = b[5].extractLsb' 4 4 := csdField_of_byte b 5 4
  have hsplit : csdCcc b = b[4] ++ b[5].extractLsb' 4 4 := by
    rw [← hhigh, ← hlow]
    exact csdField_add b 84 8 4
  rw [hsplit]
  apply BitVec.eq_of_getLsbD_eq
  intro k hk
  rw [BitVec.getLsbD_append]
  by_cases h : k < 4
  · simp [h, hk, show 4 + k < 12 by omega]
  · simp [h, hk, show 4 + k ≥ 8 by omega]

theorem csdReadBlLen_eq : csdReadBlLen b = b[5].extractLsb' 0 4 :=
  csdField_of_byte b 5 0

theorem csdWriteBlPartial_eq : csdWriteBlPartial b = b[13].getLsbD 5 :=
  csdBit_of_lt (by decide)

theorem csdCSizeV1_eq : csdCSizeV1 b = b[6].extractLsb' 0 2 ++ b[7] ++ b[8].extractLsb' 6 2 := by
  have hhigh : csdField b 72 2 = b[6].extractLsb' 0 2 := csdField_of_byte b 6 0
  have hmid : csdField b 64 8 = b[7] := csdField_whole_byte b 7
  have hlow : csdField b 62 2 = b[8].extractLsb' 6 2 := csdField_of_byte b 8 6
  rw [← hhigh, ← hmid, ← hlow, ← csdField_add b 64 2 8]
  exact csdField_add b 62 10 2

theorem csdCSizeMult_eq : csdCSizeMult b = b[9].extractLsb' 0 2 ++ b[10].extractLsb' 7 1 := by
  have hhigh : csdField b 48 2 = b[9].extractLsb' 0 2 := csdField_of_byte b 9 0
  have hlow : csdField b 47 1 = b[10].extractLsb' 7 1 := csdField_of_byte b 10 7
  rw [← hhigh, ← hlow]
  exact csdField_add b 47 2 1

theorem csdCSizeV2_eq : csdCSizeV2 b = b[7].extractLsb' 0 6 ++ b[8] ++ b[9] := by
  have hhigh : csdField b 64 6 = b[7].extractLsb' 0 6 := csdField_of_byte b 7 0
  have hmid : csdField b 56 8 = b[8] := csdField_whole_byte b 8
  have hlow : csdField b 48 8 = b[9] := csdField_whole_byte b 9
  rw [← hhigh, ← hmid, ← hlow, ← csdField_add b 56 6 8]
  exact csdField_add b 48 14 8

end Fields

/-! ## The speed tables -/

/-- The two codes of a TRAN_SPEED byte, as numbers (R164). -/
theorem toNat_speedUnit (t : Byte) : (speedUnit t).toNat = t.toNat % 8 := by
  simp [speedUnit]

theorem toNat_speedTimeValue (t : Byte) : (speedTimeValue t).toNat = t.toNat / 8 % 16 := by
  simp [speedTimeValue, Nat.shiftRight_eq_div_pow]

/-- SPEED_KBPS loses no bit (R165 to R167). -/
theorem toNat_speedKbps (t : Byte) : (speedKbps t).toNat =
    if (speedUnit t).toNat ≤ 3 then 10 ^ ((speedUnit t).toNat + 1) * tv10.getD (speedTimeValue t).toNat 0 else 0 := by
  have h : ∀ (u : BitVec 3) (v : BitVec 4), (BitVec.ofNat 20 (unit10.getD u.toNat 0 * tv10.getD v.toNat 0)).toNat =
      if u.toNat ≤ 3 then 10 ^ (u.toNat + 1) * tv10.getD v.toNat 0 else 0 := by decide
  exact h (speedUnit t) (speedTimeValue t)

/-- Settles O33: the tables at the two codes. -/
theorem speedFollowsTheTables : Obligations.SpeedFollowsTheTables := by
  intro t
  rw [← toNat_speedUnit, ← toNat_speedTimeValue]
  refine ⟨toNat_speedKbps t, ?_⟩
  simp [speedValid, BitVec.toNat_eq]

/-! ## The decodes -/

/-- The widest v1 image has 2^36 bytes (R173). -/
theorem decodeV1_capacity_le (b : Bytes 16) : (decodeV1 b).capacity.toNat ≤ 2 ^ 36 := by
  obtain ⟨hsize, hcap⟩ := (decodeV1_consistent b).capacity_v1 rfl rfl
  have hmult : 2 ^ ((decodeV1 b).cSizeMult.toNat + 2) ≤ 2 ^ 9 := Nat.pow_le_pow_right (by decide) (by omega)
  have hblock : 2 ^ (decodeV1 b).blLen.toNat ≤ 2 ^ 15 := Nat.pow_le_pow_right (by decide) (by omega)
  calc (decodeV1 b).capacity.toNat
      = ((decodeV1 b).cSize.toNat + 1) * 2 ^ ((decodeV1 b).cSizeMult.toNat + 2) * 2 ^ (decodeV1 b).blLen.toNat := by
        rw [hcap, (decodeV1_consistent b).block_size rfl]
    _ ≤ 2 ^ 12 * 2 ^ 9 * 2 ^ 15 := Nat.mul_le_mul (Nat.mul_le_mul hsize hmult) hblock
    _ = 2 ^ 36 := by decide

/-- Settles O37: the exact products are part of `Geometry.Consistent`; the bounds follow from the widths of the raw fields. -/
theorem capacityNeverWraps : Obligations.CapacityNeverWraps := by
  intro b
  obtain ⟨hsize, hcap₁⟩ := (decodeV1_consistent b).capacity_v1 rfl rfl
  obtain ⟨-, hcap₂⟩ := (decodeV2_consistent b).capacity_v2 rfl rfl
  exact ⟨(decodeV1_consistent b).block_size rfl, Nat.le_of_lt_succ hsize, hcap₁, decodeV1_capacity_le b, hcap₂, by omega⟩

/-- The registers both layouts fill alike depend on bits 103:80 and 21 alone (R176). -/
theorem decodeCommon_congr {b c : Bytes 16} (h : ∀ n : Nat, (80 ≤ n ∧ n ≤ 103) ∨ n = 21 → csdBit b n = csdBit c n)
    (ver : BitVec 2) : decodeCommon ver b = decodeCommon ver c := by
  have hspeed : csdTranSpeed b = csdTranSpeed c := csdField_congr fun m _ _ => h m (by omega)
  have hccc : csdCcc b = csdCcc c := csdField_congr fun m _ _ => h m (by omega)
  have hlen : csdReadBlLen b = csdReadBlLen c := csdField_congr fun m _ _ => h m (by omega)
  have hpartial : csdWriteBlPartial b = csdWriteBlPartial c := h 21 (.inr rfl)
  simp only [decodeCommon, hspeed, hccc, hlen, hpartial]

/-- Settles O38: the common registers, and the size fields of the version. -/
theorem decodeReadsOnlyTheListedFields : Obligations.DecodeReadsOnlyTheListedFields := by
  intro b c h
  have hlen : csdReadBlLen b = csdReadBlLen c := csdField_congr fun m _ _ => h m (by omega)
  refine ⟨fun h₁ => ?_, fun h₂ => ?_⟩
  · have hsize : csdCSizeV1 b = csdCSizeV1 c := csdField_congr fun m _ _ => h₁ m (by omega)
    have hmult : csdCSizeMult b = csdCSizeMult c := csdField_congr fun m _ _ => h₁ m (by omega)
    simp only [decodeV1, decodeCommon_congr h, hsize, hmult, hlen]
  · have hsize : csdCSizeV2 b = csdCSizeV2 c := csdField_congr fun m _ _ => h₂ m (by omega)
    simp only [decodeV2, decodeCommon_congr h, hsize]

/-- Settles O34: the state after the decode is the model's own; each register is then its field's place in the bytes. -/
theorem decodeV1FillsTheGeometry : Obligations.DecodeV1FillsTheGeometry := by
  intro i a s b
  have hblock := (decodeV1_consistent b).block_size rfl
  obtain ⟨-, hcap⟩ := (decodeV1_consistent b).capacity_v1 rfl rfl
  refine ⟨decodeV1 b, rfl, rfl, rfl, csdTranSpeed_eq b, congrArg speedKbps (csdTranSpeed_eq b),
    congrArg speedValid (csdTranSpeed_eq b), csdCcc_eq b, csdReadBlLen_eq b, hblock, csdWriteBlPartial_eq b,
    congrArg (BitVec.setWidth 22) (csdCSizeV1_eq b), csdCSizeMult_eq b, ?_⟩
  rw [hcap, hblock, Nat.mul_assoc, ← Nat.pow_add]

/-- Settles O35: as O34, with the size field of version 2. -/
theorem decodeV2FillsTheGeometry : Obligations.DecodeV2FillsTheGeometry := by
  intro i a s b
  obtain ⟨hmult, hcap⟩ := (decodeV2_consistent b).capacity_v2 rfl rfl
  exact ⟨decodeV2 b, rfl, rfl, rfl, csdTranSpeed_eq b, congrArg speedKbps (csdTranSpeed_eq b),
    congrArg speedValid (csdTranSpeed_eq b), csdCcc_eq b, csdReadBlLen_eq b, (decodeV2_consistent b).block_size rfl,
    csdWriteBlPartial_eq b, csdCSizeV2_eq b, hmult, hcap⟩

/-- Settles O36: neither version has a layout. -/
theorem decodeOfNoVersionClearsTheGeometry : Obligations.DecodeOfNoVersionClearsTheGeometry := by
  intro v i a s hv
  rcases execCsdDecode_cases v i a s with ⟨h1, -⟩ | ⟨h2, -⟩ | ⟨-, -, h⟩
  · exact absurd hv (by simp [h1])
  · exact absurd hv (by simp [h2])
  · exact h

end Sys2Proof.Machine
end

section
/-!
PROOFS. No exception and no trap (R200, R207): every step answers a next state and keeps the parameters, an error is one of the
codes of STATUS (R201, R203), and a refused row reports one (R205).
-/

namespace Sys2Proof.Machine

/-- The block's own move answers a next state. -/
theorem advance_answers (s : State) : ∃ t, advance s = .next t := ⟨_, advance_eq s⟩

/-- Every step answers a next state: there is no fault and no refusal (R200). -/
theorem step_answers (s : State) : ∃ t, step s = .next t := by
  rcases step_cases s with ⟨-, e⟩ | ⟨rest, -, e⟩ | ⟨w, rest, -, ⟨-, e⟩ | ⟨-, e⟩⟩ | ⟨i, b, rest, -, e⟩ |
    ⟨w, i, b, rest, -, ⟨-, e⟩ | ⟨-, e | e⟩⟩ | ⟨r, rest, -, e⟩ | ⟨rest, -, e⟩
  · exact e ▸ advance_answers s
  · exact e ▸ advance_answers _
  · exact e ▸ advance_answers s
  · exact e ▸ accept_answers w _
  · exact ⟨_, e⟩
  · exact ⟨_, e⟩
  · exact e ▸ accept_answers w _
  · obtain ⟨u, hu⟩ := accept_answers w { s with host := rest, draws := s.draws + 1 }
    exact ⟨writeCsd i b u, e.trans (congrArg (mapNext (writeCsd i b)) hu)⟩
  · exact ⟨_, e⟩
  · exact ⟨_, e⟩

/-- An accepted request leaves the parameters as they are. -/
theorem accept_keeps_params {w : Word} {s t : State} (h : accept w s = .next t) : t.params = s.params := by
  have next {u : State} (e : accept w s = .next u) : t = u := Host.Outcome.next.inj (h.symm.trans e)
  rcases accept_cases w s with ⟨-, e⟩ | ⟨-, ⟨-, e⟩ | ⟨-, e⟩ | ⟨-, e⟩ | ⟨-, e⟩⟩
  case inr.inr.inr.inr =>
    obtain ⟨code, g, hd, -, -⟩ := execCsdDecode_finishes (reqVer w) (reqIdx w) (reqArg w) (latch w s)
    obtain rfl := next (e.trans hd)
    rfl
  all_goals
    obtain rfl := next e
    rfl

/-- Every step leaves the parameters as they are. -/
theorem step_keeps_params {s t : State} (h : step s = .next t) : t.params = s.params := by
  cases stepEffect h with
  | own hs move => exact (untouched_of_advance move).params
  | accepted w hs old new n u accepts run result =>
    subst result
    exact (accept_keeps_params run :)
  | port hs c v n result =>
    subst result
    rfl
  | reset hs raised result =>
    subst result
    rfl

/-- Settles O47: a step is an acceptance, the block's own move, a host access or a reset, and each answers a next state. -/
theorem everyStepAnswersANextState : Obligations.EveryStepAnswersANextState := by
  intro s
  obtain ⟨t, ht⟩ := step_answers s
  exact ⟨t, ht, step_keeps_params ht⟩

/-- The four error codes of well-formed parameters are single bits, no two the same (R201). -/
theorem params_error_codes_of_wf {p : Params} (hp : p.wf = true) :
    (oneBit p.stError = true ∧ oneBit p.stTimeout = true ∧ oneBit p.stTransmission = true ∧ oneBit p.stUnusable = true) ∧
    [p.stError, p.stTimeout, p.stTransmission, p.stUnusable].Nodup := by
  simp only [Params.wf, Bool.and_eq_true, decide_eq_true_eq] at hp
  obtain ⟨⟨⟨⟨⟨⟨⟨-, herr⟩, hto⟩, htx⟩, hun⟩, hnodup⟩, -⟩, -⟩ := hp
  exact ⟨⟨herr, hto, htx, hun⟩, hnodup⟩

/-- A code with a bit set is not 0. -/
theorem ne_zero_of_oneBit {c : Byte} (h : oneBit c = true) : c ≠ 0 := by
  rintro rfl
  exact absurd h (by decide)

/-- Settles O59: of the three codes the block reports, ST_OK has no bit and the other two have one, and all differ from the
host's two codes. -/
theorem statusHasAtMostOneBit : Obligations.StatusHasAtMostOneBit := by
  intro s h
  obtain ⟨hok, -, -⟩ := params_bounds_of_wf h.params_wf
  obtain ⟨⟨herr, hto, htx, hun⟩, hnodup⟩ := params_error_codes_of_wf h.params_wf
  simp only [List.nodup_cons, List.mem_cons, List.not_mem_nil, or_false, not_or] at hnodup
  obtain ⟨⟨-, herrTx, herrUn⟩, ⟨htoTx, htoUn⟩, -⟩ := hnodup
  rcases h.status_code with hs | hs | hs <;> rw [hs]
  · rw [hok]
    exact ⟨.inl rfl, (ne_zero_of_oneBit htx).symm, (ne_zero_of_oneBit hun).symm⟩
  · exact ⟨.inr herr, herrTx, herrUn⟩
  · exact ⟨.inr hto, htoTx, htoUn⟩

/-- Settles O12: each refused row means `refuseRequest`. -/
theorem refusedRowsOnlyReportAnError : Obligations.RefusedRowsOnlyReportAnError :=
  fun _ _ => ⟨rfl, rfl, rfl⟩

end Sys2Proof.Machine
end

section
/-!
PROOFS. Reset in any phase (R230, R231), a request that waits (R240), and a CSDBUF write in the step of a request (R240, R242).
-/

namespace Sys2Proof.Machine

/-- The step of a reset is the reset (R230). -/
theorem step_of_reset {s : State} {rest : List HostAction} (hh : s.host = .reset :: rest) :
    step s = .next (resetBlock { s with host := rest }) := by
  simp [step, hostStep, hh]

/-- Settles O49: the step is `resetBlock`, which drops an answer from the link exactly when one is outstanding. -/
theorem resetRestoresEveryRegister : Obligations.ResetRestoresEveryRegister := by
  intro s rest hh
  rw [step_of_reset hh]
  by_cases hp : s.phase = .idle <;> simp [resetBlock, State.reset, outstanding, State.busy, hp]

/-- Settles O44: the step is the block's own move, which does not see the host and leaves the request with it. -/
theorem requestWaitsWhileBusy : Obligations.RequestWaitsWhileBusy := by
  intro s w rest hp hh
  obtain ⟨t, ht, hun, -⟩ := advance_cases s
  have halone : step { s with host := [] } = .next { t with host := [] } :=
    (step_of_no_host (s := { s with host := [] }) rfl).trans (advance_withHost [] ht)
  exact ⟨t, (step_of_pending hp hh).trans ht, halone, hun.host, hun.req, hun.lastOp, hun.frame, hun.csdbuf, hun.geom⟩

section RequestWhileWriting

variable {s : State} {w : Word} {i : Fin 16} {b : Byte} {rest : List HostAction}
  (hh : s.host = .requestWhileWriting w i b :: rest)
include hh

/-- A busy block takes the write and leaves the request with the host (R240, R242). -/
theorem step_of_pendingWhileWriting (hp : s.phase ≠ .idle) :
    step s = .next (writeCsd i b { s with host := .request w :: rest }) := by
  simpa [hh, hp] using step_cases s

/-- An idle block accepts the request on the image with the write in it, or on the old one and the write lands after it (R242). -/
theorem step_of_requestWhileWriting (hp : s.phase = .idle) :
    step s = accept w (writeCsd i b { s with host := rest, draws := s.draws + 1 }) ∨
    step s = mapNext (writeCsd i b) (accept w { s with host := rest, draws := s.draws + 1 }) := by
  simpa [hh, hp] using step_cases s

end RequestWhileWriting

/-- What the accepting step of a CSD.DECODE does, by its version (R178, R179). -/
theorem accept_csdDecode_cases {w : Word} (hr : reservedClear w = true) (ho : reqOp w = 5) (s : State) :
    (reqVer w = 1 ∧ accept w s = .next (finish s.params.stOk (writeGeometry (decodeV1 s.csdbuf) (latch w s)))) ∨
    (reqVer w = 2 ∧ accept w s = .next (finish s.params.stOk (writeGeometry (decodeV2 s.csdbuf) (latch w s)))) ∨
    (reqVer w ≠ 1 ∧ reqVer w ≠ 2 ∧ accept w s = .next (finish s.params.stError (writeGeometry .zero (latch w s)))) := by
  rw [accept_of_csdDecode hr ho]
  exact execCsdDecode_cases (reqVer w) (reqIdx w) (reqArg w) (latch w s)

/-- A CSD.DECODE of version 1 or 2 is accepted with ST_OK and the geometry its layout reads in CSDBUF (R178). -/
theorem accept_of_decode {w : Word} (hr : reservedClear w = true) (ho : reqOp w = 5) (hv : reqVer w = 1 ∨ reqVer w = 2) :
    ∃ layout : Bytes 16 → Geometry, (reqVer w = 1 → layout = decodeV1) ∧ (reqVer w = 2 → layout = decodeV2) ∧
      ∀ s, accept w s = .next (finish s.params.stOk (writeGeometry (layout s.csdbuf) (latch w s))) := by
  rcases hv with hv | hv
  · exact ⟨decodeV1, fun _ => rfl, by simp [hv], fun s => by simpa [hv] using accept_csdDecode_cases hr ho s⟩
  · exact ⟨decodeV2, by simp [hv], fun _ => rfl, fun s => by simpa [hv] using accept_csdDecode_cases hr ho s⟩

/-- Settles O40: the decode runs on the new image or on the old one, and the write lands either way. -/
theorem sameStepWriteIsSeenOrNot : Obligations.SameStepWriteIsSeenOrNot := by
  intro s w i b rest hp hh hr ho hv
  obtain ⟨layout, hv1, hv2, hacc⟩ := accept_of_decode hr ho hv
  rcases step_of_requestWhileWriting hh hp with e | e <;> rw [hacc] at e
  · exact ⟨_, e, rfl, rfl, fun h1 => .inr (congrFun (hv1 h1) _), fun h2 => .inr (congrFun (hv2 h2) _)⟩
  · exact ⟨_, e, rfl, rfl, fun h1 => .inl (congrFun (hv1 h1) _), fun h2 => .inl (congrFun (hv2 h2) _)⟩

/-- Every request but a CSD.DECODE of version 1 or 2 is accepted alike whatever CSDBUF holds, and leaves it (R23, R34, R178). -/
theorem accept_of_no_decode {w : Word} (hw : ¬ (reservedClear w = true ∧ reqOp w = 5 ∧ (reqVer w = 1 ∨ reqVer w = 2)))
    {s u : State} (h : accept w s = .next u) (c : Bytes 16) (n : Nat) :
    accept w { s with csdbuf := c, draws := n } = .next { u with csdbuf := c, draws := n } := by
  have next {v : State} (e : accept w s = .next v) : u = v := Host.Outcome.next.inj (h.symm.trans e)
  rcases accept_cases w s with ⟨hf, e⟩ | ⟨hr, ⟨ho, e⟩ | ⟨ho, e⟩ | ⟨ho, e⟩ | ⟨ho, e⟩⟩
  · obtain rfl := next e
    exact accept_of_refused hf _
  · obtain rfl := next e
    exact accept_of_nop hr ho _
  · obtain rfl := next e
    exact accept_of_frame hr ho _
  · obtain rfl := next e
    exact accept_of_command ((isCommand_iff w).mpr ⟨hr, ho⟩) _
  · have hv : reqVer w ≠ 1#2 ∧ reqVer w ≠ 2#2 := not_or.mp fun hv => hw ⟨hr, ho, hv⟩
    have fails (s : State) : accept w s = .next (finish s.params.stError (writeGeometry .zero (latch w s))) := by
      simpa [hv] using accept_csdDecode_cases hr ho s
    obtain rfl := next (fails s)
    exact fails _

/-- Settles O41: a busy block only takes the write; an idle one accepts the request alike before and after it. -/
theorem writeBesideARequestOnlyWrites : Obligations.WriteBesideARequestOnlyWrites := by
  intro s w i b rest hh
  refine ⟨step_of_pendingWhileWriting hh, fun hp hw => ?_⟩
  obtain ⟨u, hu⟩ := accept_answers w { s with host := rest }
  refine ⟨u, (step_of_request (s := { s with host := .request w :: rest }) hp rfl).trans hu, ?_⟩
  rcases step_of_requestWhileWriting hh hp with e | e
  · exact e.trans (accept_of_no_decode hw hu (s.csdbuf.set i b) (s.draws + 1))
  · exact e.trans (congrArg (mapNext (writeCsd i b)) (accept_of_no_decode hw hu s.csdbuf (s.draws + 1)))

end Sys2Proof.Machine
end
